-- ==== Sys2Proof/Word.lean ====
section
/-! DEFINITION. The words of the HDMI-TX engine: 32-bit register values, bytes of a packet, the 8-bit video format id. -/

namespace Sys2Proof

/-- A register of the host port or of the transmitter block is a 32-bit value (20_memory R43, R44). -/
abbrev Word := BitVec 32

/-- One byte of a packet (00_scope R6). -/
abbrev Byte := BitVec 8

/-- `VideoFormatId`, an 8-bit value; 0 means that no format is requested (42_timing R120). -/
abbrev FormatId := BitVec 8

end Sys2Proof
end

