-- ==== Sys2Proof/Config.lean ====
section
/-! DEFINITION. The configuration of an engine (00_scope R5), the inputs of its environment (00_scope R8, 60_exceptions R200),
and the free values that stand for what the spec leaves open. -/

namespace Sys2Proof

/-- The `VideoTiming` record with this spec's widths (42_timing R120). -/
structure VideoTiming where
  activeH      : BitVec 16
  frontPorchH  : BitVec 16
  pulseWidthH  : BitVec 16
  backPorchH   : BitVec 16
  activeV      : BitVec 16
  frontPorchV  : BitVec 16
  pulseWidthV  : BitVec 16
  backPorchV   : BitVec 16
  pixelFreqKHz : BitVec 32
  interlaced   : Bool
  activeLowH   : Bool
  activeLowV   : Bool
  deriving DecidableEq, Repr, Inhabited

/-- A row of `GEOMETRY_TABLE` (00_scope R5). -/
structure GeometryRow where
  xres      : Word
  yres      : Word
  frameRate : Word
  format    : FormatId
  deriving DecidableEq, Repr

/-- A row of `AVI_TABLE`: thirteen opaque data bytes (44_infoframes R151). -/
structure AviRow where
  data1  : Byte
  data2  : Byte
  data3  : Byte
  data4  : Byte
  data5  : Byte
  data6  : Byte
  data7  : Byte
  data8  : Byte
  data9  : Byte
  data10 : Byte
  data11 : Byte
  data12 : Byte
  data13 : Byte
  deriving DecidableEq, Repr

/-- The seven audio sample rates (10_state R34); there is no eighth, so code 7 is never stored. -/
inductive SampleRate where
  | r32k | r44k1 | r48k | r88k2 | r96k | r176k4 | r192k
  deriving DecidableEq, Repr

/-- An entry `{N, CTS}` of `ACR_TABLE`, both u32 (45_acr R170). -/
structure AcrEntry where
  n   : Word
  cts : Word
  deriving DecidableEq, Repr

/-- A row of `ACR_TABLE`: a pixel clock in Hz and one entry for each of the seven rates (45_acr R170). -/
structure AcrRow where
  clockHz : Word
  e32k    : AcrEntry
  e44k1   : AcrEntry
  e48k    : AcrEntry
  e88k2   : AcrEntry
  e96k    : AcrEntry
  e176k4  : AcrEntry
  e192k   : AcrEntry
  deriving DecidableEq, Repr

/-- The closed four-way enumeration of audio channel counts (44_infoframes R155). -/
inductive ChannelCount where
  | two | four | six | eight
  deriving DecidableEq, Repr

/-- What the engine needs of a sink descriptor (10_state R19). -/
structure SinkInfo where
  basicMode : Bool
  scanInfo  : BitVec 2
  deriving DecidableEq, Repr, Inhabited

/-- A channel-count code and a speaker-allocation code (44_infoframes R155). -/
structure ChannelCodes where
  count      : Byte
  allocation : Byte
  deriving DecidableEq, Repr

/-- `AUDIO_CHANNEL_TABLE`: the codes of the four channel counts (00_scope R5, 44_infoframes R155). -/
structure ChannelTable where
  two   : ChannelCodes
  four  : ChannelCodes
  six   : ChannelCodes
  eight : ChannelCodes
  deriving DecidableEq, Repr

/-- `AUDIO_CHANNEL_TABLE[channels]` (44_infoframes R155). -/
def ChannelTable.codes (t : ChannelTable) : ChannelCount → ChannelCodes
  | .two => t.two
  | .four => t.four
  | .six => t.six
  | .eight => t.eight

/-- The parameters of 00_scope R5, each a field. `Config.fixedOk` (WellFormed.lean) says that those with a value in its table
have it. The two times are in milliseconds; no rule depends on one, and the document gives the resume wait no number
(70_reset_and_hazards R211, log 12). `VideoFormatId` is the type of the tables' keys (42_timing R120). -/
structure Config where
  drainAttemptTimeoutMs : Nat
  drainAttempts         : Nat
  drainRounds           : Nat
  resumeTimeoutMs       : Option Nat
  timingTable           : List (FormatId × VideoTiming)
  geometryTable         : List GeometryRow
  defaultFormat         : FormatId
  aviTable              : List (FormatId × AviRow)
  acrTable              : List AcrRow
  vendorName            : Vector Byte 8
  productDesc           : Vector Byte 16
  spdSourceInfo         : Byte
  audioChannels         : ChannelCount
  levelShift            : BitVec 4
  downMix               : BitVec 1
  audioChannelTable     : ChannelTable
  audioRateReset        : SampleRate
  sinkInfoReset         : SinkInfo
  spuriousIrq           : Bool
  aviType               : Byte
  aviVersion            : Byte
  aviLength             : Byte
  deriving DecidableEq, Repr

/-- ENV's answers to whatever the transition about to run may ask of it; no transition asks one question twice
(10_state R20, 60_exceptions R196, R197, R200, 40_hotplug_fsm R89).
`true` is `Ok` for an enable, `some` is `Ok(info)` for the sink read. -/
structure Draws where
  enableHotplug : Bool
  enableCore    : Bool
  enableCec     : Bool
  sinkRead      : Option SinkInfo
  engineActive  : Bool
  resumeTimeout : Bool
  deriving DecidableEq, Repr, Inhabited

/-- Who moves next and what it does: HOST writes or reads its port or takes its pending step, IRQ runs its handler,
WORKER takes its next step, ENV changes the connection line (00_scope R8, 60_exceptions R191, R200). -/
inductive Action where
  | hostWrite (offset : Nat) (value : Word)
  | hostRead (offset : Nat)
  | hostStep
  | irq
  | worker
  | setSense (level : Bool)
  deriving DecidableEq, Repr, Inhabited

/-- One choice of the outside world: an agent's move, with ENV's answers for it. -/
structure Stimulus where
  action : Action
  draws  : Draws
  deriving DecidableEq, Repr, Inhabited

/-- FREE VALUE (log 1): the move the outside world makes at step number `n` when the agenda of State does not say.
Between two transitions any enabled agent may go, under no priority (20_memory R50, 60_exceptions R191). -/
opaque Config.freeStimulus : Nat → Stimulus

/-- FREE VALUE (log 3): the level of the connection line at reset, which is "whatever ENV holds" (10_state R20, R33). -/
opaque Config.senseAtReset : Bool

/-- FREE VALUE (log 9): the timing of a format id that no row of TIMING_TABLE names, which 70_reset_and_hazards R207
excludes for every id the lookup can yield. -/
opaque Config.freeTiming : FormatId → VideoTiming

end Sys2Proof
end

