-- ==== Sys2Proof/Syntax.lean ====
section
/-! DEFINITION. The operations of the engine as syntax: one constructor for each of the 24 rows of spec/opcode_table.json
(30_encoding R60, R63, R64, R65), with the operands the operation's rule gives it. -/

namespace Sys2Proof

/-- An operation. The first nine are host commands, the next three run by IRQ or WORKER, the last twelve internal. -/
inductive Instr where
  /-- SET_HPD with b = 1 (40_hotplug_fsm R81). -/
  | setHpd1
  /-- SET_HPD with b = 0 (40_hotplug_fsm R82). -/
  | setHpd0
  /-- POWER_ON; xres, yres, frameRate come from ARG0..ARG2 (41_power_sequencer R100, 30_encoding R67). -/
  | powerOn (fmt : FormatId)
  /-- POWER_OFF (41_power_sequencer R101). -/
  | powerOff
  /-- SUSPEND (40_hotplug_fsm R88). -/
  | suspend
  /-- RESUME (40_hotplug_fsm R89). -/
  | resume
  /-- QUERY_CONN (40_hotplug_fsm R90). -/
  | queryConn
  /-- QUERY_POWER (40_hotplug_fsm R91). -/
  | queryPower
  /-- SET_AUDIO_RATE (41_power_sequencer R103). -/
  | setAudioRate (rate : SampleRate)
  /-- CONN_IRQ (40_hotplug_fsm R85). -/
  | connIrq
  /-- HPD_TASK (40_hotplug_fsm R86). -/
  | hpdTask
  /-- POWEROFF_TASK (41_power_sequencer R102). -/
  | powerOffTask
  /-- RESOLVE_TIMING (42_timing R121). -/
  | resolveTiming (fmt : FormatId) (xres yres frameRate : Word)
  /-- TIMING_PROG (42_timing R123). -/
  | timingProg (t : VideoTiming)
  /-- AUDIO_ENABLE (43_audio_drain R136). -/
  | audioEnable
  /-- AUDIO_DRAIN, one poll (43_audio_drain R135). -/
  | audioDrain
  /-- CHECKSUM (44_infoframes R150). -/
  | checksum (bytes : List Byte)
  /-- AVI_EMIT (44_infoframes R152). -/
  | aviEmit (id : FormatId) (scanInfo : BitVec 2)
  /-- SPD_EMIT (44_infoframes R154). -/
  | spdEmit
  /-- AINFO_EMIT (44_infoframes R156); level shift and down-mix are naturals, masked by the encoder (R155). -/
  | ainfoEmit (channels : ChannelCount) (levelShift downMix : Nat)
  /-- ACR_CALC (45_acr R171). -/
  | acrCalc (clockHz : Word) (rate : SampleRate)
  /-- ACR_SETUP (45_acr R172). -/
  | acrSetup (clockHz : Word) (rate : SampleRate)
  /-- ARM_SENSE (40_hotplug_fsm R84). -/
  | armSense
  /-- TEARDOWN (40_hotplug_fsm R83). -/
  | teardown
  deriving DecidableEq, Repr

end Sys2Proof
end

