-- ==== Sys2Proof/WellFormed.lean ====
section
/-! DEFINITION. Which operands and which configurations are legal: the requirements on a timing row (42_timing R122) and the
platform's requirements on the tables (70_reset_and_hazards R207, 42_timing R120, R121, 45_acr R170, R173). -/

namespace Sys2Proof

/-- `total_h >= 0`: the four horizontal fields are not all 0 (42_timing R122). -/
def VideoTiming.totalHOk (t : VideoTiming) : Bool :=
  decide (1 ≤ t.activeH.toNat + t.frontPorchH.toNat + t.backPorchH.toNat + t.pulseWidthH.toNat)

/-- `total_v >= 0`: the four vertical fields are not all 0 (42_timing R122). -/
def VideoTiming.totalVOk (t : VideoTiming) : Bool :=
  decide (1 ≤ t.activeV.toNat + t.frontPorchV.toNat + t.backPorchV.toNat + t.pulseWidthV.toNat)

/-- `backPorchV + pulseWidthV >= 1`, for the start line of 42_timing R123 (R122). -/
def VideoTiming.startVOk (t : VideoTiming) : Bool :=
  decide (1 ≤ t.backPorchV.toNat + t.pulseWidthV.toNat)

/-- A legal row of TIMING_TABLE (42_timing R122). -/
def VideoTiming.legal (t : VideoTiming) : Bool :=
  t.totalHOk && t.totalVOk && t.startVOk

/-- An operation whose operands are legal. Every operand but a timing record is legal by its type:
fmt and the geometry are compared only (42_timing R121), rates and channel counts are closed enumerations. -/
def Instr.wellFormed : Instr → Bool
  | .timingProg t => t.legal
  | .setHpd1 => true
  | .setHpd0 => true
  | .powerOn _ => true
  | .powerOff => true
  | .suspend => true
  | .resume => true
  | .queryConn => true
  | .queryPower => true
  | .setAudioRate _ => true
  | .connIrq => true
  | .hpdTask => true
  | .powerOffTask => true
  | .resolveTiming _ _ _ _ => true
  | .audioEnable => true
  | .audioDrain => true
  | .checksum _ => true
  | .aviEmit _ _ => true
  | .spdEmit => true
  | .ainfoEmit _ _ _ => true
  | .acrCalc _ _ => true
  | .acrSetup _ _ => true
  | .armSense => true
  | .teardown => true

/-- The id is in the domain of TIMING_TABLE (42_timing R120: "supported"). -/
def Config.supports (c : Config) (id : FormatId) : Bool :=
  c.timingTable.any fun row => row.1 == id

/-- TIMING_TABLE is a finite map with no key 0 and legal rows only (42_timing R120, R122). -/
def Config.timingTableOk (c : Config) : Bool :=
  decide (c.timingTable.map Prod.fst).Nodup && c.timingTable.all fun row => row.1 != 0 && row.2.legal

/-- `DEFAULT_FORMAT` and every format that GEOMETRY_TABLE names are supported (42_timing R121). -/
def Config.lookupTotal (c : Config) : Bool :=
  c.supports c.defaultFormat && c.geometryTable.all fun g => c.supports g.format

/-- No two rows of ACR_TABLE have one clock, and no two of AVI_TABLE one id (45_acr R170, 44_infoframes R151). -/
def Config.keysUnique (c : Config) : Bool :=
  decide (c.acrTable.map AcrRow.clockHz).Nodup && decide (c.aviTable.map Prod.fst).Nodup

/-- The values that the table of 00_scope R5 gives for parameters that no rule leaves to the platform. `SPURIOUS_IRQ` is not
among them: the rules say what the engine does for either value (60_exceptions R187). -/
def Config.fixedOk (c : Config) : Bool :=
  decide (c.drainAttemptTimeoutMs = 2) && decide (c.drainAttempts = 500) && decide (c.drainRounds = 15)
    && decide (c.spdSourceInfo = 0x00)
    && decide (c.audioChannelTable = ⟨⟨0x01, 0x00⟩, ⟨0x03, 0x03⟩, ⟨0x05, 0x0B⟩, ⟨0x07, 0x1F⟩⟩)
    && decide (c.audioRateReset = .r48k) && decide (c.sinkInfoReset = ⟨true, 0⟩)
    && decide (c.aviType = 0x82) && decide (c.aviVersion = 0x02) && decide (c.aviLength = 0x0D)

/-- The requirements on the tables that the platform must meet before the rules hold (70_reset_and_hazards R207). -/
def Config.wf (c : Config) : Bool :=
  c.timingTableOk && c.lookupTotal && c.keysUnique

/-- Every table `N` of a high rate is a multiple of its multiplier (45_acr R173). -/
def AcrRow.multiplesOk (r : AcrRow) : Bool :=
  decide (r.e88k2.n.toNat % 2 = 0) && decide (r.e96k.n.toNat % 2 = 0)
    && decide (r.e176k4.n.toNat % 4 = 0) && decide (r.e192k.n.toNat % 4 = 0)

/-- The requirement of 45_acr R173 on the whole of ACR_TABLE. -/
def Config.acrMultiplesOk (c : Config) : Bool :=
  c.acrTable.all AcrRow.multiplesOk

end Sys2Proof
end

