-- ==== Sys2Proof/Decode.lean ====
section
/-! DEFINITION. The command word: operation ids, the decode procedure of 30_encoding R61 with its illegal words named (R68),
and the encoder of the four formats (R62, R63). -/

namespace Sys2Proof

/-- The 3-bit code of a sample rate (10_state R34). -/
def SampleRate.code : SampleRate → BitVec 3
  | .r32k => 0
  | .r44k1 => 1
  | .r48k => 2
  | .r88k2 => 3
  | .r96k => 4
  | .r176k4 => 5
  | .r192k => 6

/-- The rate a 3-bit code names; code 7 names none (10_state R34, 30_encoding R68). -/
def SampleRate.ofCode (c : BitVec 3) : Option SampleRate :=
  if c = 0 then some .r32k
  else if c = 1 then some .r44k1
  else if c = 2 then some .r48k
  else if c = 3 then some .r88k2
  else if c = 4 then some .r96k
  else if c = 5 then some .r176k4
  else if c = 6 then some .r192k
  else none

/-- The 8-bit operation id, used in `CMD[7:0]` and in `Done(op, err)` (30_encoding R60, R63, R64, R65). -/
def Instr.opId : Instr → Byte
  | .setHpd1 => 0x01
  | .setHpd0 => 0x01
  | .powerOn _ => 0x02
  | .powerOff => 0x03
  | .suspend => 0x04
  | .resume => 0x05
  | .queryConn => 0x06
  | .queryPower => 0x07
  | .setAudioRate _ => 0x08
  | .connIrq => 0x10
  | .hpdTask => 0x11
  | .powerOffTask => 0x12
  | .resolveTiming _ _ _ _ => 0x20
  | .timingProg _ => 0x21
  | .audioEnable => 0x22
  | .audioDrain => 0x23
  | .checksum _ => 0x24
  | .aviEmit _ _ => 0x25
  | .spdEmit => 0x26
  | .ainfoEmit _ _ _ => 0x27
  | .acrCalc _ _ => 0x28
  | .acrSetup _ _ => 0x29
  | .armSense => 0x2A
  | .teardown => 0x2B

/-- Why a word written to CMD is no host command (30_encoding R68). -/
inductive Illegal where
  /-- Id 0x00, 0x09 to 0x0F, or 0x2C to 0xFF: no operation of that id. -/
  | reservedId
  /-- Id 0x10 to 0x2B: an id of the operations HOST cannot issue. -/
  | notHostId
  /-- A legal id with a non-zero bit where its format shows 0. -/
  | mustBeZero
  /-- SET_AUDIO_RATE with rate 7. -/
  | rateSeven
  deriving DecidableEq, Repr

/-- `CMD[7:0]`, the operation id in every format (30_encoding R62). -/
def cmdOp (w : Word) : Byte := w.extractLsb' 0 8

/-- `b = CMD[8]` (30_encoding R67). -/
def cmdFlag (w : Word) : Bool := w.getLsbD 8

/-- `fmt = CMD[15:8]` (30_encoding R67). -/
def cmdFmt (w : Word) : FormatId := w.extractLsb' 8 8

/-- `rate = CMD[10:8]` (30_encoding R67). -/
def cmdRate (w : Word) : BitVec 3 := w.extractLsb' 8 3

/-- A format without operand: every bit above the id must be 0 (30_encoding R61, R62). -/
def decodeN (w : Word) (i : Instr) : Except Illegal Instr :=
  if w &&& ~~~(0x000000FF : Word) ≠ 0 then .error .mustBeZero else .ok i

/-- Format B of SET_HPD (30_encoding R61). -/
def decodeB (w : Word) : Except Illegal Instr :=
  if w &&& ~~~(0x000001FF : Word) ≠ 0 then .error .mustBeZero
  else if cmdFlag w then .ok .setHpd1 else .ok .setHpd0

/-- Format P of POWER_ON (30_encoding R61). -/
def decodeP (w : Word) : Except Illegal Instr :=
  if w &&& ~~~(0x0000FFFF : Word) ≠ 0 then .error .mustBeZero else .ok (.powerOn (cmdFmt w))

/-- Format R of SET_AUDIO_RATE (30_encoding R61). -/
def decodeR (w : Word) : Except Illegal Instr :=
  if w &&& ~~~(0x000007FF : Word) ≠ 0 then .error .mustBeZero
  else match SampleRate.ofCode (cmdRate w) with
    | some r => .ok (.setAudioRate r)
    | none => .error .rateSeven

/-- The decode procedure, run on a word written to CMD while BUSY = 0: total, every illegal word named
(30_encoding R61, R68). -/
def decode (w : Word) : Except Illegal Instr :=
  let op := cmdOp w
  if op = 0x01 then decodeB w
  else if op = 0x02 then decodeP w
  else if op = 0x03 then decodeN w .powerOff
  else if op = 0x04 then decodeN w .suspend
  else if op = 0x05 then decodeN w .resume
  else if op = 0x06 then decodeN w .queryConn
  else if op = 0x07 then decodeN w .queryPower
  else if op = 0x08 then decodeR w
  else if 0x10 ≤ op.toNat ∧ op.toNat ≤ 0x2B then .error .notHostId
  else .error .reservedId

/-- The word of CMD that issues a host command; the other operations have no encoding
(30_encoding R62, R63, R64, R65). -/
def encode : Instr → Option Word
  | .setHpd1 => some 0x00000101
  | .setHpd0 => some 0x00000001
  | .powerOn fmt => some (0x00000002 ||| (fmt.setWidth 32 <<< 8))
  | .powerOff => some 0x00000003
  | .suspend => some 0x00000004
  | .resume => some 0x00000005
  | .queryConn => some 0x00000006
  | .queryPower => some 0x00000007
  | .setAudioRate rate => some (0x00000008 ||| (rate.code.setWidth 32 <<< 8))
  | .connIrq => none
  | .hpdTask => none
  | .powerOffTask => none
  | .resolveTiming _ _ _ _ => none
  | .timingProg _ => none
  | .audioEnable => none
  | .audioDrain => none
  | .checksum _ => none
  | .aviEmit _ _ => none
  | .spdEmit => none
  | .ainfoEmit _ _ _ => none
  | .acrCalc _ _ => none
  | .acrSetup _ _ => none
  | .armSense => none
  | .teardown => none

/-- The command word whose low `nbits` bits are `w` and whose other bits are 0; a command is exactly one 32-bit word
(30_encoding R62), so there is no byte order to lay it out in (20_memory R43). -/
def commandWord (nbits w : Nat) : Word := BitVec.ofNat 32 (w % 2 ^ nbits)

/-- What the decoder reads from an instruction whose bits the opcode table numbers; none where it is illegal. -/
def decodeTableWord (nbits w : Nat) : Option Instr :=
  if nbits ≤ 32 then
    match decode (commandWord nbits w) with
    | .ok i => some i
    | .error _ => none
  else none

end Sys2Proof
end

