-- ==== Sys2Proof/Machine/Tables.lean ====
section
/-! DEFINITION. The packet header bytes that are no parameters (44_infoframes R153, R155), the table lookups, and the reference
configuration of 92_eei_decisions D13. -/

namespace Sys2Proof

/-- The source descriptor's type byte (44_infoframes R153). -/
def Config.spdType : Byte := 0x83

/-- The source descriptor's version byte (44_infoframes R153). -/
def Config.spdVersion : Byte := 0x01

/-- The source descriptor's length byte, 25 payload bytes (44_infoframes R153). -/
def Config.spdLength : Byte := 0x19

/-- The audio-info packet's type byte (44_infoframes R155). -/
def Config.ainfoType : Byte := 0x84

/-- The audio-info packet's version byte (44_infoframes R155). -/
def Config.ainfoVersion : Byte := 0x01

/-- The audio-info packet's length byte (44_infoframes R155). -/
def Config.ainfoLength : Byte := 0x0A

/-- The entry of an ACR row for a rate: `row.e[rate]` (45_acr R170, R171). -/
def AcrRow.entry (row : AcrRow) : SampleRate → AcrEntry
  | .r32k => row.e32k
  | .r44k1 => row.e44k1
  | .r48k => row.e48k
  | .r88k2 => row.e88k2
  | .r96k => row.e96k
  | .r176k4 => row.e176k4
  | .r192k => row.e192k

/-- `TIMING_TABLE[id]` when `id` is supported (42_timing R120). -/
def Config.timing? (c : Config) (id : FormatId) : Option VideoTiming :=
  (c.timingTable.find? fun row => row.1 == id).map Prod.snd

/-- `AVI_TABLE[id]` when there is a row (44_infoframes R151). -/
def Config.avi? (c : Config) (id : FormatId) : Option AviRow :=
  (c.aviTable.find? fun row => row.1 == id).map Prod.snd

/-- The row of ACR_TABLE for exactly this clock (45_acr R171). -/
def Config.acr? (c : Config) (clockHz : Word) : Option AcrRow :=
  c.acrTable.find? fun row => row.clockHz == clockHz

/-- A row of the reference AVI_TABLE: the non-zero bytes data1, data2, data4 (92_eei_decisions D13). -/
def referenceAvi (data2 data4 : Byte) : AviRow :=
  ⟨0x10, data2, 0, data4, 0, 0, 0, 0, 0, 0, 0, 0, 0⟩

/-- A row of the reference ACR_TABLE from its three CTS values (92_eei_decisions D13). -/
def referenceAcr (clockHz cts32 cts44 cts48 n48 : Word) : AcrRow :=
  ⟨clockHz, ⟨4096, cts32⟩, ⟨6272, cts44⟩, ⟨n48, cts48⟩, ⟨12544, cts44⟩, ⟨12288, cts48⟩, ⟨25088, cts44⟩, ⟨24576, cts48⟩⟩

/-- The reference configuration of 92_eei_decisions D13, with the value or the default of every other parameter (00_scope R5). -/
def Config.reference : Config where
  drainAttemptTimeoutMs := 2
  drainAttempts := 500
  drainRounds := 15
  resumeTimeoutMs := none
  timingTable := [
    (1, ⟨640, 16, 96, 48, 480, 10, 2, 33, 25200, false, true, true⟩),
    (2, ⟨720, 16, 62, 60, 480, 9, 6, 30, 27000, false, true, true⟩),
    (4, ⟨1280, 110, 40, 220, 720, 5, 5, 20, 74250, false, false, false⟩),
    (5, ⟨1920, 88, 44, 148, 540, 2, 5, 15, 74250, true, false, false⟩),
    (16, ⟨1920, 88, 44, 148, 1080, 4, 5, 36, 148500, false, false, false⟩),
    (17, ⟨720, 12, 64, 68, 576, 5, 5, 39, 27000, false, true, true⟩)]
  geometryTable := [⟨640, 480, 60, 1⟩, ⟨720, 480, 60, 2⟩, ⟨1280, 720, 60, 4⟩, ⟨1920, 1080, 60, 16⟩, ⟨720, 576, 50, 17⟩]
  defaultFormat := 16
  aviTable := [
    (1, referenceAvi 0x18 1), (2, referenceAvi 0x18 2), (4, referenceAvi 0x28 4),
    (5, referenceAvi 0x28 5), (16, referenceAvi 0x28 16), (17, referenceAvi 0x18 17)]
  acrTable := [
    referenceAcr 25200000 25200 28000 25200 6144,
    referenceAcr 27000000 27000 30000 27000 6144,
    referenceAcr 74250000 74250 82500 74250 6144,
    referenceAcr 148500000 148500 165000 148500 24576]
  vendorName := #v[0x51, 0x55, 0x41, 0x4C, 0x43, 0x4F, 0x4D, 0x4D]
  productDesc := #v[0x48, 0x44, 0x4D, 0x49, 0x20, 0x54, 0x58, 0x20, 0x45, 0x4E, 0x47, 0x49, 0x4E, 0x45, 0, 0]
  spdSourceInfo := 0x00
  audioChannels := .two
  levelShift := 0
  downMix := 0
  audioChannelTable := ⟨⟨0x01, 0x00⟩, ⟨0x03, 0x03⟩, ⟨0x05, 0x0B⟩, ⟨0x07, 0x1F⟩⟩
  audioRateReset := .r48k
  sinkInfoReset := ⟨true, 0⟩
  spuriousIrq := true
  aviType := 0x82
  aviVersion := 0x02
  aviLength := 0x0D

end Sys2Proof
end

