-- ==== Sys2Proof/Machine/State.lean ====
section
/-! DEFINITION. The state of the engine (10_state), its trace records (R30), the reasons a step could stop, and reset (R33). -/

namespace Sys2Proof.Machine

/-- The states of the hot-plug state machine (10_state R14). -/
inductive HpdState where
  | hpdOff | hpdArmed | disconnected | connected
  deriving DecidableEq, Repr

/-- `ConnectionState` (10_state R13). -/
inductive Connection where
  | disconnected | connected
  deriving DecidableEq, Repr

/-- The tasks WORKER's queue can name (10_state R17). -/
inductive Task where
  | hpd | off
  deriving DecidableEq, Repr

/-- The three power domains (10_state R18). -/
inductive Domain where
  | hotplug | core | cec
  deriving DecidableEq, Repr

/-- The error kinds, `ok` for success (60_exceptions R185). -/
inductive ErrKind where
  | ok | preconditionViolation | powerDomainFailure | unsupportedFormat | drainTimeout | busTransactionFailure | illegalCommand
  deriving DecidableEq, Repr

/-- A record of the trace (10_state R30). `done` carries the 8-bit operation id and the 8-bit error code. -/
inductive Rec where
  | regWrite (offset : Nat) (value : Word)
  | regRead (offset : Nat) (value : Word)
  | callEnable (d : Domain) (ok : Bool)
  | callDisable (d : Domain)
  | callResetPhysicalLayer
  | callInitializePhysicalLayer
  | callPowerDownPhysicalLayer
  | callReadSinkDescriptor (result : Option SinkInfo)
  | connChanged (c : Connection)
  | audioChanged (active : Bool)
  | report (k : ErrKind)
  | done (op err : Byte)
  deriving DecidableEq, Repr

/-- The multiplier of a sample rate: 1, 2 or 4 (45_acr R170). -/
inductive Multiplier where
  | x1 | x2 | x4
  deriving DecidableEq, Repr

/-- The three N/CTS slots, one for each sample-rate family (45_acr R170). -/
inductive Slot where
  | s32 | s44 | s48
  deriving DecidableEq, Repr

/-- The record ACR_CALC returns (45_acr R171). -/
structure AcrResult where
  n        : Word
  ctsField : Word
  mult     : Multiplier
  slot     : Slot
  deriving DecidableEq, Repr

/-- What an internal function run by `exec` returned to its caller: the model's own, no register of the engine (log 7). -/
inductive Ret where
  | none
  | byte (b : Byte)
  | timing (id : FormatId) (t : VideoTiming)
  | acr (result : Option AcrResult)
  | supported (yes : Bool)
  deriving DecidableEq, Repr

/-- The four operands of POWER_ON, read once at the write of CMD (30_encoding R67). -/
structure PowerOnArgs where
  fmt       : FormatId
  xres      : Word
  yres      : Word
  frameRate : Word
  deriving DecidableEq, Repr

/-- The labels of the two steps of POWER_ON and of RESUME (10_state R12). -/
inductive HostLabel where
  | w | b
  deriving DecidableEq, Repr

/-- `sp.HOST` (10_state R12), with the operands of the POWER_ON in flight. -/
inductive HostPtr where
  | idle
  | powerOn (label : HostLabel) (args : PowerOnArgs)
  | resume (label : HostLabel)
  deriving DecidableEq, Repr

/-- The labels of the steps of POWEROFF_TASK (10_state R12). -/
inductive TaskLabel where
  | p1 | p2 | p3
  deriving DecidableEq, Repr

/-- `sp.WORKER` (10_state R12). -/
inductive WorkerPtr where
  | idle
  | powerOffTask (label : TaskLabel)
  deriving DecidableEq, Repr

/-- `TransmitterState` (10_state R13, R14, R34); `hpdInitialized` is derived (Flags.lean). -/
structure TransmitterState where
  hpdState          : HpdState
  panelPoweredOn    : Bool
  panelSuspended    : Bool
  hotplugOffPending : Bool
  connectionState   : Connection
  activeFormat      : FormatId
  audioSampleRate   : SampleRate
  pixelClockHz      : Word
  xres              : Word
  yres              : Word
  frameRate         : Word
  deriving DecidableEq, Repr

/-- The names of the 35 registers of the TX map (20_memory R42). -/
inductive TxReg where
  | ctrl | hpdIntCtrl | hpdIntAck | hpdIntStatus | audioCfg
  | total | activeH | activeV | vTotalF2 | activeVF2 | frameCtrl
  | aviCtrl | aviInfo0 | aviInfo1 | aviInfo2 | aviInfo3
  | spdCtrl | spdHdr | spd0 | spd1 | spd2 | spd3 | spd4 | spd5 | spd6
  | audioInfoCtrl | audioInfo0 | audioInfo1
  | acrPktCtrl | acr32v0 | acr32v1 | acr44v0 | acr44v1 | acr48v0 | acr48v1
  deriving DecidableEq, Repr

/-- The stored words of the 32 RW registers of the TX map (10_state R21 to R26).
HPD_INT_ACK, HPD_INT_STATUS and AUDIO_CFG store nothing (R21). -/
structure TxRegs where
  ctrl          : Word
  hpdIntCtrl    : Word
  total         : Word
  activeH       : Word
  activeV       : Word
  vTotalF2      : Word
  activeVF2     : Word
  frameCtrl     : Word
  aviCtrl       : Word
  aviInfo0      : Word
  aviInfo1      : Word
  aviInfo2      : Word
  aviInfo3      : Word
  spdCtrl       : Word
  spdHdr        : Word
  spd0          : Word
  spd1          : Word
  spd2          : Word
  spd3          : Word
  spd4          : Word
  spd5          : Word
  spd6          : Word
  audioInfoCtrl : Word
  audioInfo0    : Word
  audioInfo1    : Word
  acrPktCtrl    : Word
  acr32v0       : Word
  acr32v1       : Word
  acr44v0       : Word
  acr44v1       : Word
  acr48v0       : Word
  acr48v1       : Word
  deriving DecidableEq, Repr

/-- The three `enabled[...]` flags (10_state R18). -/
structure Enabled where
  hotplug : Bool
  core    : Bool
  cec     : Bool
  deriving DecidableEq, Repr

/-- The whole machine: the engine's state, ENV's inputs, and the model's own fields `agenda`, `tick`, `ret`. -/
structure State where
  /-- The configured tables and parameters, which nothing writes (10_state R31, last row of R33; log 2). -/
  cfg            : Config
  /-- `CMD`, the last word accepted (10_state R11; log 5). -/
  cmd            : Word
  arg0           : Word
  arg1           : Word
  arg2           : Word
  /-- `RESULT[7:0]`. -/
  err            : Byte
  /-- `RESULT[8]`. -/
  busy           : Bool
  rdata          : Word
  spHost         : HostPtr
  spWorker       : WorkerPtr
  ts             : TransmitterState
  offPending     : Bool
  intPending     : Bool
  hpdTaskPending : Bool
  hpdEventSeen   : Bool
  /-- The worker queue, head first (10_state R17). -/
  wq             : List Task
  enabled        : Enabled
  sinkInfo       : SinkInfo
  drainRound     : Nat
  drainAttempt   : Nat
  tx             : TxRegs
  /-- The trace, oldest record first (10_state R30). -/
  trace          : List Rec
  /-- The live connection line, an input of ENV (10_state R20; log 3). -/
  sense          : Bool
  /-- ENV's answers for the transition about to run (10_state R20; log 4). -/
  draws          : Draws
  /-- Who moves next, first stimulus first (log 1). -/
  agenda         : List Stimulus
  /-- The number of steps taken, the argument of the free stimulus (log 1). -/
  tick           : Nat
  /-- What the last internal function run by `exec` returned (log 7). -/
  ret            : Ret
  deriving DecidableEq, Repr

/-- Reasons a step could stop with a fault: none. The spec gives the engine no fault that stops it; an error ends a host
command and the engine goes on (60_exceptions R192, R193). Safe: nothing is ever cut short. -/
inductive Fault
  deriving DecidableEq, Repr

/-- Reasons a step could be refused. -/
inductive Refusal where
  /-- Raised by an arm of `exec` whose operation has no meaning yet; no arm raises it now. Safe: nothing is claimed of it. -/
  | notModelled (mnemonic : String)
  deriving DecidableEq, Repr

/-- The outcome of a step of this machine. -/
abbrev Outcome := Host.Outcome State Fault Refusal

/-- The state right after reset of an engine with configuration `c` (10_state R33, 70_reset_and_hazards R205). -/
def State.resetWith (c : Config) : State where
  cfg := c
  cmd := 0
  arg0 := 0
  arg1 := 0
  arg2 := 0
  err := 0
  busy := false
  rdata := 0
  spHost := .idle
  spWorker := .idle
  ts := {
    hpdState := .hpdOff
    panelPoweredOn := false
    panelSuspended := false
    hotplugOffPending := false
    connectionState := .disconnected
    activeFormat := c.defaultFormat
    audioSampleRate := c.audioRateReset
    pixelClockHz := 0
    xres := 0
    yres := 0
    frameRate := 0 }
  offPending := false
  intPending := false
  hpdTaskPending := false
  hpdEventSeen := false
  wq := []
  enabled := ⟨false, false, false⟩
  sinkInfo := c.sinkInfoReset
  drainRound := 0
  drainAttempt := 0
  tx := {
    ctrl := 0, hpdIntCtrl := 0, total := 0, activeH := 0, activeV := 0, vTotalF2 := 0, activeVF2 := 0, frameCtrl := 0
    aviCtrl := 0, aviInfo0 := 0, aviInfo1 := 0, aviInfo2 := 0, aviInfo3 := 0
    spdCtrl := 0, spdHdr := 0, spd0 := 0, spd1 := 0, spd2 := 0, spd3 := 0, spd4 := 0, spd5 := 0, spd6 := 0
    audioInfoCtrl := 0, audioInfo0 := 0, audioInfo1 := 0
    acrPktCtrl := 0, acr32v0 := 0, acr32v1 := 0, acr44v0 := 0, acr44v1 := 0, acr48v0 := 0, acr48v1 := 0 }
  trace := []
  sense := Config.senseAtReset
  draws := ⟨false, false, false, none, false, false⟩
  agenda := []
  tick := 0
  ret := .none

/-- The state right after reset, with the reference configuration, the default of 92_eei_decisions D13 (log 2). -/
def State.reset : State := State.resetWith Config.reference

end Sys2Proof.Machine
end

