-- ==== Sys2Proof/Machine/Operands.lean ====
section
/-! DEFINITION. Operands and bit fields: how values are packed into register words, the codes of the enumerations,
the offsets of the two register maps, and the operands a host command reads. -/

namespace Sys2Proof.Machine

/-- A boolean stored in a bit is 1 for `true` (00_scope R6). -/
def bit (b : Bool) : Word := if b then 1 else 0

/-- Four packet bytes in a register word: byte k of the group at bits `[8k+7:8k]` (20_memory R43). -/
def pack4 (b0 b1 b2 b3 : Byte) : Word :=
  b0.setWidth 32 ||| (b1.setWidth 32 <<< 8) ||| (b2.setWidth 32 <<< 16) ||| (b3.setWidth 32 <<< 24)

/-- `f12(x) = x mod 4096`: every timing field is 12 bits (42_timing R123); `mod` is the non-negative remainder (00_scope R6). -/
def f12 (x : Int) : BitVec 12 := BitVec.ofNat 12 (x % 4096).toNat

/-- Two 12-bit fields in a timing register: one at `[27:16]`, one at `[11:0]` (10_state R22). -/
def pack12 (high low : BitVec 12) : Word :=
  (high.setWidth 32 <<< 16) ||| low.setWidth 32

/-- The stored code of the hot-plug state, 2 bits (10_state R14). -/
def HpdState.code : HpdState → BitVec 2
  | .hpdOff => 0
  | .hpdArmed => 1
  | .disconnected => 2
  | .connected => 3

/-- The stored code of the connection state, 1 bit (10_state R13). -/
def Connection.code : Connection → BitVec 1
  | .disconnected => 0
  | .connected => 1

/-- The error code of a kind, for RESULT.ERR, `Done` and `Report` (60_exceptions R185). -/
def ErrKind.code : ErrKind → Byte
  | .ok => 0
  | .preconditionViolation => 1
  | .powerDomainFailure => 2
  | .unsupportedFormat => 3
  | .drainTimeout => 4
  | .busTransactionFailure => 5
  | .illegalCommand => 6

/-- The number a multiplier stands for (45_acr R170). -/
def Multiplier.value : Multiplier → Nat
  | .x1 => 1
  | .x2 => 2
  | .x4 => 4

/-- The `MULT` field of ACR_PKT_CTRL (10_state R26, 45_acr R170). -/
def Multiplier.field : Multiplier → BitVec 2
  | .x1 => 0
  | .x2 => 1
  | .x4 => 2

/-- The `SELECT` field of ACR_PKT_CTRL (10_state R26, 45_acr R170). -/
def Slot.field : Slot → BitVec 2
  | .s32 => 1
  | .s44 => 2
  | .s48 => 3

/-- The multiplier of a rate (45_acr R170). -/
def rateMultiplier : SampleRate → Multiplier
  | .r32k => .x1
  | .r44k1 => .x1
  | .r48k => .x1
  | .r88k2 => .x2
  | .r96k => .x2
  | .r176k4 => .x4
  | .r192k => .x4

/-- The slot of a rate's family (45_acr R170). -/
def rateSlot : SampleRate → Slot
  | .r32k => .s32
  | .r44k1 => .s44
  | .r48k => .s48
  | .r88k2 => .s44
  | .r96k => .s48
  | .r176k4 => .s44
  | .r192k => .s48

/-- The byte offset of a register in the TX map (20_memory R42). -/
def TxReg.offset : TxReg → Nat
  | .ctrl => 0x00
  | .hpdIntCtrl => 0x04
  | .hpdIntAck => 0x08
  | .hpdIntStatus => 0x0C
  | .audioCfg => 0x10
  | .total => 0x14
  | .activeH => 0x18
  | .activeV => 0x1C
  | .vTotalF2 => 0x20
  | .activeVF2 => 0x24
  | .frameCtrl => 0x28
  | .aviCtrl => 0x2C
  | .aviInfo0 => 0x30
  | .aviInfo1 => 0x34
  | .aviInfo2 => 0x38
  | .aviInfo3 => 0x3C
  | .spdCtrl => 0x40
  | .spdHdr => 0x44
  | .spd0 => 0x48
  | .spd1 => 0x4C
  | .spd2 => 0x50
  | .spd3 => 0x54
  | .spd4 => 0x58
  | .spd5 => 0x5C
  | .spd6 => 0x60
  | .audioInfoCtrl => 0x64
  | .audioInfo0 => 0x68
  | .audioInfo1 => 0x6C
  | .acrPktCtrl => 0x70
  | .acr32v0 => 0x74
  | .acr32v1 => 0x78
  | .acr44v0 => 0x7C
  | .acr44v1 => 0x80
  | .acr48v0 => 0x84
  | .acr48v1 => 0x88

/-- The bits of a register that a field names; the other bits are reserved, written as 0 and read as 0
(10_state section 5, R21 to R26). -/
def TxReg.mask : TxReg → Word
  | .ctrl => 0x00000003
  | .hpdIntCtrl => 0x00000006
  | .hpdIntAck => 0x00000001
  | .hpdIntStatus => 0x00000003
  | .audioCfg => 0x00000001
  | .total => 0x0FFF0FFF
  | .activeH => 0x0FFF0FFF
  | .activeV => 0x0FFF0FFF
  | .vTotalF2 => 0x00000FFF
  | .activeVF2 => 0x0FFF0FFF
  | .frameCtrl => 0xB0000000
  | .aviCtrl => 0x00000001
  | .aviInfo0 => 0xFFFFFFFF
  | .aviInfo1 => 0xFFFFFFFF
  | .aviInfo2 => 0xFFFFFFFF
  | .aviInfo3 => 0xFF00FFFF
  | .spdCtrl => 0x00000001
  | .spdHdr => 0x00FFFFFF
  | .spd0 => 0xFFFFFFFF
  | .spd1 => 0xFFFFFFFF
  | .spd2 => 0xFFFFFFFF
  | .spd3 => 0xFFFFFFFF
  | .spd4 => 0xFFFFFFFF
  | .spd5 => 0xFFFFFFFF
  | .spd6 => 0x0000FFFF
  | .audioInfoCtrl => 0x00000001
  | .audioInfo0 => 0xFFFFFFFF
  | .audioInfo1 => 0x0000FFFF
  | .acrPktCtrl => 0x00030031
  | .acr32v0 => 0xFFFFFFFF
  | .acr32v1 => 0xFFFFFFFF
  | .acr44v0 => 0xFFFFFFFF
  | .acr44v1 => 0xFFFFFFFF
  | .acr48v0 => 0xFFFFFFFF
  | .acr48v1 => 0xFFFFFFFF

/-- The register of a slot that holds `(CTS << 12) mod 2^32` (10_state R26). -/
def Slot.ctsReg : Slot → TxReg
  | .s32 => .acr32v0
  | .s44 => .acr44v0
  | .s48 => .acr48v0

/-- The register of a slot that holds the emitted `N` (10_state R26). -/
def Slot.nReg : Slot → TxReg
  | .s32 => .acr32v1
  | .s44 => .acr44v1
  | .s48 => .acr48v1

/-- The registers of the host port (20_memory R41). -/
inductive HpReg where
  | cmd | arg0 | arg1 | arg2 | result | rdata
  deriving DecidableEq, Repr

/-- The host-port register at a byte offset; none where it is misaligned or unmapped (20_memory R41, R45). -/
def hpReg (offset : Nat) : Option HpReg :=
  if offset = 0x00 then some .cmd
  else if offset = 0x04 then some .arg0
  else if offset = 0x08 then some .arg1
  else if offset = 0x0C then some .arg2
  else if offset = 0x10 then some .result
  else if offset = 0x14 then some .rdata
  else none

/-- The operands of a POWER_ON as they stand at the write of CMD (30_encoding R67). -/
def powerOnArgs (fmt : FormatId) (s : State) : PowerOnArgs :=
  ⟨fmt, s.arg0, s.arg1, s.arg2⟩

/-- ENV's answer to `enablePowerDomain(d)`: `true` for Ok (60_exceptions R196). -/
def drawEnable (d : Domain) (s : State) : Bool :=
  match d with
  | .hotplug => s.draws.enableHotplug
  | .core => s.draws.enableCore
  | .cec => s.draws.enableCec

end Sys2Proof.Machine
end

