-- ==== Sys2Proof/Machine/Flags.lean ====
section
/-! DEFINITION. Status flags (10_state R16): the derived ones, the words that show them, and the interrupt latch
(60_exceptions R187 to R189). -/

namespace Sys2Proof.Machine

/-- `hpdInitialized`, "Armed": derived from the state (10_state R14). -/
def TransmitterState.hpdInitialized (ts : TransmitterState) : Bool :=
  ts.hpdState != .hpdOff

/-- `HPD_INT_CTRL.POLARITY`, bit 1 (10_state R21). -/
def polarityBit (ctrl : Word) : Bool := ctrl.getLsbD 1

/-- `HPD_INT_CTRL.INT_EN`, bit 2 (10_state R21). -/
def intEnBit (ctrl : Word) : Bool := ctrl.getLsbD 2

/-- `Latch()`: `intPending` after it, from the value of HPD_INT_CTRL and the line (60_exceptions R188). -/
def latch (ctrl : Word) (sense pending : Bool) : Bool :=
  pending || (intEnBit ctrl && (sense == polarityBit ctrl))

/-- The request line `irq = intPending and HPD_INT_CTRL.INT_EN` (60_exceptions R187). -/
def irqLine (s : State) : Bool := s.intPending && intEnBit s.tx.hpdIntCtrl

/-- CONN_IRQ is enabled by the line, or at any time when SPURIOUS_IRQ is true (30_encoding R64, 60_exceptions R187). -/
def connIrqEnabled (s : State) : Bool := irqLine s || s.cfg.spuriousIrq

/-- The word RESULT reads: ERR at `[7:0]`, BUSY at `[8]`, the rest 0 (10_state R11). -/
def resultWord (s : State) : Word := s.err.setWidth 32 ||| (bit s.busy <<< 8)

/-- The word HPD_INT_STATUS reads: `intPending` at `[0]`, `sense` at `[1]` (10_state R21). -/
def hpdIntStatusWord (s : State) : Word := bit s.intPending ||| (bit s.sense <<< 1)

/-- The word AUDIO_CFG reads: ENV's engineActive at `[0]` (10_state R21). -/
def audioCfgWord (s : State) : Word := bit s.draws.engineActive

/-- The value of HPD_INT_CTRL that enables delivery and watches for a connect or a disconnect (10_state R21). -/
def watchWord (connect : Bool) : Word := (1 <<< 2) ||| (bit connect <<< 1)

/-- The RESUME wait can end: a publication was seen, or ENV draws timeout (40_hotplug_fsm R89). -/
def resumeReady (s : State) : Bool := s.hpdEventSeen || s.draws.resumeTimeout

/-- A new POWER_ON has nothing to wait for and the panel is already on (41_power_sequencer R100 step W). -/
def alreadyOn (s : State) : Bool := s.ts.panelPoweredOn && !s.offPending

end Sys2Proof.Machine
end

