-- ==== Sys2Proof/Machine/Ops.lean ====
section
/-! DEFINITION. The primitives every rule uses (00_scope R7): trace records, register reads and writes, collaborator calls,
publications and reports, and the ways a host command ends (60_exceptions R192). -/

namespace Sys2Proof.Machine

/-- The stored word of a register; the three that store nothing give 0 (10_state R21 to R26). -/
def TxRegs.get (t : TxRegs) : TxReg → Word
  | .ctrl => t.ctrl
  | .hpdIntCtrl => t.hpdIntCtrl
  | .hpdIntAck => 0
  | .hpdIntStatus => 0
  | .audioCfg => 0
  | .total => t.total
  | .activeH => t.activeH
  | .activeV => t.activeV
  | .vTotalF2 => t.vTotalF2
  | .activeVF2 => t.activeVF2
  | .frameCtrl => t.frameCtrl
  | .aviCtrl => t.aviCtrl
  | .aviInfo0 => t.aviInfo0
  | .aviInfo1 => t.aviInfo1
  | .aviInfo2 => t.aviInfo2
  | .aviInfo3 => t.aviInfo3
  | .spdCtrl => t.spdCtrl
  | .spdHdr => t.spdHdr
  | .spd0 => t.spd0
  | .spd1 => t.spd1
  | .spd2 => t.spd2
  | .spd3 => t.spd3
  | .spd4 => t.spd4
  | .spd5 => t.spd5
  | .spd6 => t.spd6
  | .audioInfoCtrl => t.audioInfoCtrl
  | .audioInfo0 => t.audioInfo0
  | .audioInfo1 => t.audioInfo1
  | .acrPktCtrl => t.acrPktCtrl
  | .acr32v0 => t.acr32v0
  | .acr32v1 => t.acr32v1
  | .acr44v0 => t.acr44v0
  | .acr44v1 => t.acr44v1
  | .acr48v0 => t.acr48v0
  | .acr48v1 => t.acr48v1

/-- Store a word in a register; a write to one of the three that store nothing stores nothing (20_memory R46). -/
def TxRegs.set (t : TxRegs) (r : TxReg) (v : Word) : TxRegs :=
  match r with
  | .ctrl => { t with ctrl := v }
  | .hpdIntCtrl => { t with hpdIntCtrl := v }
  | .hpdIntAck => t
  | .hpdIntStatus => t
  | .audioCfg => t
  | .total => { t with total := v }
  | .activeH => { t with activeH := v }
  | .activeV => { t with activeV := v }
  | .vTotalF2 => { t with vTotalF2 := v }
  | .activeVF2 => { t with activeVF2 := v }
  | .frameCtrl => { t with frameCtrl := v }
  | .aviCtrl => { t with aviCtrl := v }
  | .aviInfo0 => { t with aviInfo0 := v }
  | .aviInfo1 => { t with aviInfo1 := v }
  | .aviInfo2 => { t with aviInfo2 := v }
  | .aviInfo3 => { t with aviInfo3 := v }
  | .spdCtrl => { t with spdCtrl := v }
  | .spdHdr => { t with spdHdr := v }
  | .spd0 => { t with spd0 := v }
  | .spd1 => { t with spd1 := v }
  | .spd2 => { t with spd2 := v }
  | .spd3 => { t with spd3 := v }
  | .spd4 => { t with spd4 := v }
  | .spd5 => { t with spd5 := v }
  | .spd6 => { t with spd6 := v }
  | .audioInfoCtrl => { t with audioInfoCtrl := v }
  | .audioInfo0 => { t with audioInfo0 := v }
  | .audioInfo1 => { t with audioInfo1 := v }
  | .acrPktCtrl => { t with acrPktCtrl := v }
  | .acr32v0 => { t with acr32v0 := v }
  | .acr32v1 => { t with acr32v1 := v }
  | .acr44v0 => { t with acr44v0 := v }
  | .acr44v1 => { t with acr44v1 := v }
  | .acr48v0 => { t with acr48v0 := v }
  | .acr48v1 => { t with acr48v1 := v }

/-- Append a record to the trace (10_state R30). -/
def emit (r : Rec) (s : State) : State := { s with trace := s.trace ++ [r] }

/-- The word a read of a TX register returns (10_state R21 to R26, 20_memory R44, R46); reserved bits read as 0. -/
def txRead (r : TxReg) (s : State) : Word :=
  match r with
  | .hpdIntAck => 0
  | .hpdIntStatus => hpdIntStatusWord s
  | .audioCfg => audioCfgWord s
  | r => s.tx.get r &&& r.mask

/-- A read leaves the state as it is, but that a read of HPD_INT_STATUS or AUDIO_CFG is recorded
(10_state R30, 20_memory R46). -/
def noteRead (r : TxReg) (s : State) : State :=
  match r with
  | .hpdIntStatus => emit (.regRead r.offset (txRead r s)) s
  | .audioCfg => emit (.regRead r.offset (txRead r s)) s
  | _ => s

/-- `intPending` after a write of a TX register: an acknowledge clears it, a write of HPD_INT_CTRL evaluates the latch with
the value just written, any other write leaves it (20_memory R46, 60_exceptions R188, R189). -/
def pendingAfterWrite (r : TxReg) (v : Word) (s : State) : Bool :=
  match r with
  | .hpdIntAck => if v.getLsbD 0 then false else s.intPending
  | .hpdIntCtrl => latch v s.sense s.intPending
  | _ => s.intPending

/-- `MemWrite(TX, a, 4, v)`: record the write, store the value, and let its side effect happen
(00_scope R7, 20_memory R44, R46). -/
def txWrite (r : TxReg) (v : Word) (s : State) : State :=
  { s with
    tx := s.tx.set r v
    intPending := pendingAfterWrite r v s
    trace := s.trace ++ [.regWrite r.offset v] }

/-- An explicit ordered list of register writes, done in order (20_memory R49). -/
def txWrites (ws : List (TxReg × Word)) (s : State) : State :=
  ws.foldl (fun s w => txWrite w.1 w.2 s) s

/-- `readConnectionSenseBit()`: bit 1 of a read of HPD_INT_STATUS (20_memory R44). -/
def readSenseBit (s : State) : Bool := (txRead .hpdIntStatus s).getLsbD 1

/-- `isAudioEngineActive()`: bit 0 of a read of AUDIO_CFG (20_memory R44). -/
def readEngineActive (s : State) : Bool := (txRead .audioCfg s).getLsbD 0

/-- The `enabled` flag of a domain (10_state R18). -/
def Enabled.get (e : Enabled) : Domain → Bool
  | .hotplug => e.hotplug
  | .core => e.core
  | .cec => e.cec

/-- Set the `enabled` flag of a domain (10_state R18). -/
def Enabled.set (e : Enabled) (d : Domain) (b : Bool) : Enabled :=
  match d with
  | .hotplug => { e with hotplug := b }
  | .core => { e with core := b }
  | .cec => { e with cec := b }

/-- `enablePowerDomain(d)`: recorded with ENV's answer; the flag becomes true on Ok and is unchanged on Err
(60_exceptions R196). -/
def enableDomain (d : Domain) (s : State) : State :=
  { s with
    enabled := if drawEnable d s then s.enabled.set d true else s.enabled
    trace := s.trace ++ [.callEnable d (drawEnable d s)] }

/-- `disablePowerDomain(d)`: recorded; the flag becomes false (60_exceptions R196). -/
def disableDomain (d : Domain) (s : State) : State :=
  { s with
    enabled := s.enabled.set d false
    trace := s.trace ++ [.callDisable d] }

/-- `readSinkDescriptor()`: recorded with ENV's answer; `sinkInfo` is the info on Ok; on Err it is kept and
BusTransactionFailure is reported (40_hotplug_fsm R86 step T5). -/
def readSink (s : State) : State :=
  match s.draws.sinkRead with
  | some info => { s with sinkInfo := info, trace := s.trace ++ [.callReadSinkDescriptor (some info)] }
  | none => { s with trace := s.trace ++ [.callReadSinkDescriptor none, .report .busTransactionFailure] }

/-- Deliver the function's result to the caller; only `exec` of an internal function uses it (log 7). -/
def returning (r : Ret) (s : State) : State := { s with ret := r }

/-- The end of a host command: RESULT.ERR, BUSY, `sp.HOST`, and the `Done` record (10_state R11, R30, 60_exceptions R192). -/
def finish (op err : Byte) (s : State) : State :=
  { s with
    err := err
    busy := false
    spHost := .idle
    trace := s.trace ++ [.done op err] }

/-- The command of operation `op` completes with success (60_exceptions R185, code 0). -/
def complete (op : Byte) (s : State) : State := finish op (ErrKind.code .ok) s

/-- TAKING AN EXCEPTION, the engine's `raise k`: what the rule did before stays, RESULT.ERR takes the code of k, BUSY falls,
`sp.HOST` is Idle, and Done(op, code) is recorded; nothing is saved and nothing else changes (60_exceptions R192).
There is no return from it: the next write of CMD starts from Idle (R193). -/
def raise (k : ErrKind) (op : Byte) (s : State) : State := finish op k.code s

/-- What HOST reads at a byte offset of its port: CMD, and every misaligned or unmapped offset, read 0
(20_memory R41, R45). -/
def hpRead (offset : Nat) (s : State) : Word :=
  match hpReg offset with
  | some .cmd => 0
  | some .arg0 => s.arg0
  | some .arg1 => s.arg1
  | some .arg2 => s.arg2
  | some .result => resultWord s
  | some .rdata => s.rdata
  | none => 0

/-- ENV drives the connection line to a level, and the latch is evaluated in the same transition (60_exceptions R188,
20_memory R50). DESIGN CHOICE (log 15): the spec speaks of a change of the line only; that the latch is evaluated too where
the line already has the level is the model's choice. -/
def changeSense (level : Bool) (s : State) : State :=
  { s with
    sense := level
    intPending := latch s.tx.hpdIntCtrl level s.intPending }

end Sys2Proof.Machine
end

