-- ==== Sys2Proof/Machine/Acr.lean ====
section
/-! DEFINITION. The audio clock-recovery calculator and its register writes: ACR_CALC and ACR_SETUP (45_acr). -/

namespace Sys2Proof.Machine

/-- The record for an entry `{N, CTS}` and a rate: `N div mult`, `(CTS << 12) mod 2^32` (45_acr R171). -/
def acrResult (e : AcrEntry) (rate : SampleRate) : AcrResult where
  n := BitVec.ofNat 32 (e.n.toNat / (rateMultiplier rate).value)
  ctsField := e.cts <<< 12
  mult := rateMultiplier rate
  slot := rateSlot rate

/-- ACR_CALC(clockHz, rate): `none` is Unsupported (45_acr R171). -/
def acrCalc (c : Config) (clockHz : Word) (rate : SampleRate) : Option AcrResult :=
  (c.acr? clockHz).map fun row => acrResult (row.entry rate) rate

/-- The control word `0x1 | slot << 4 | MULT << 16` (45_acr R172, 10_state R26). -/
def acrControl (r : AcrResult) : Word :=
  1 ||| (r.slot.field.setWidth 32 <<< 4) ||| (r.mult.field.setWidth 32 <<< 16)

/-- The three register writes of ACR_SETUP, enable last (45_acr R172). -/
def acrWrites (r : AcrResult) : List (TxReg × Word) :=
  [(r.slot.ctsReg, r.ctsField), (r.slot.nReg, r.n), (.acrPktCtrl, acrControl r)]

/-- ACR_SETUP(clockHz, rate): three writes, or none when Unsupported (45_acr R172). -/
def acrSetup (clockHz : Word) (rate : SampleRate) (s : State) : State :=
  match acrCalc s.cfg clockHz rate with
  | none => s
  | some r => txWrites (acrWrites r) s

/-- ACR_CALC is pure; its result goes to the caller (45_acr R171). -/
def execAcrCalc (clockHz : Word) (rate : SampleRate) (s : State) : Outcome :=
  .next (returning (.acr (acrCalc s.cfg clockHz rate)) s)

/-- ACR_SETUP; `Ok` or `Unsupported` goes to the caller (45_acr R172). -/
def execAcrSetup (clockHz : Word) (rate : SampleRate) (s : State) : Outcome :=
  .next (returning (.supported (acrCalc s.cfg clockHz rate).isSome) (acrSetup clockHz rate s))

end Sys2Proof.Machine
end

