-- ==== Sys2Proof/Machine/Packets.lean ====
section
/-! DEFINITION. The infoframe encoders and their register writes: CHECKSUM, AVI_EMIT, SPD_EMIT, AINFO_EMIT (44_infoframes). -/

namespace Sys2Proof.Machine

/-- The sum of bytes as an unbounded natural (44_infoframes R150). -/
def byteSum (bytes : List Byte) : Nat := (bytes.map BitVec.toNat).sum

/-- CHECKSUM(bytes) (44_infoframes R150). -/
def checksum (bytes : List Byte) : Byte :=
  BitVec.ofNat 8 ((256 - byteSum bytes % 256) % 256)

/-- A 7-bit ASCII byte: bit 7 is masked off (44_infoframes R153). -/
def ascii7 (b : Byte) : Byte := b &&& 0x7F

/-- `d[1]`: the scan-info bits OR-ed into bits 1:0 of data1 (44_infoframes R151). -/
def aviData1 (row : AviRow) (scanInfo : BitVec 2) : Byte := row.data1 ||| scanInfo.setWidth 8

/-- The sixteen bytes the AVI checksum sums: type, version, length, `d[1]` to `d[13]` (44_infoframes R151). -/
def aviBytes (c : Config) (row : AviRow) (scanInfo : BitVec 2) : List Byte :=
  [ c.aviType, c.aviVersion, c.aviLength,
    aviData1 row scanInfo, row.data2, row.data3, row.data4, row.data5, row.data6, row.data7,
    row.data8, row.data9, row.data10, row.data11, row.data12, row.data13 ]

/-- The four AVI words w0, w1, w2, w3 of a row (44_infoframes R151, 90_conflicts C3). -/
def aviWords (c : Config) (row : AviRow) (scanInfo : BitVec 2) : Word × Word × Word × Word :=
  ( pack4 (checksum (aviBytes c row scanInfo)) (aviData1 row scanInfo) row.data2 row.data3,
    pack4 row.data4 row.data5 row.data6 row.data7,
    pack4 row.data8 row.data9 row.data10 row.data11,
    pack4 row.data12 row.data13 0 c.aviVersion )

/-- AVI_ENCODE(id, scanInfo): `none` is Unsupported (44_infoframes R151). -/
def aviEncode (c : Config) (id : FormatId) (scanInfo : BitVec 2) : Option (Word × Word × Word × Word) :=
  (c.avi? id).map fun row => aviWords c row scanInfo

/-- The five register writes of AVI_EMIT: the payload, then SEND (44_infoframes R152). -/
def aviWrites (w : Word × Word × Word × Word) : List (TxReg × Word) :=
  [(.aviInfo0, w.1), (.aviInfo1, w.2.1), (.aviInfo2, w.2.2.1), (.aviInfo3, w.2.2.2), (.aviCtrl, 1)]

/-- AVI_EMIT(id, scanInfo): five writes, or one report and none (44_infoframes R152). -/
def aviEmit (id : FormatId) (scanInfo : BitVec 2) (s : State) : State :=
  match aviEncode s.cfg id scanInfo with
  | none => emit (.report .unsupportedFormat) s
  | some w => txWrites (aviWrites w) s

/-- The 25 payload bytes of the source descriptor: the two masked strings and the source-information byte
(44_infoframes R153). -/
def spdPayload (vendor : Vector Byte 8) (product : Vector Byte 16) (info : Byte) : List Byte :=
  vendor.toList.map ascii7 ++ product.toList.map ascii7 ++ [info]

/-- The 28 bytes the source descriptor's checksum sums (44_infoframes R153). -/
def spdBytes (vendor : Vector Byte 8) (product : Vector Byte 16) (info : Byte) : List Byte :=
  [Config.spdType, Config.spdVersion, Config.spdLength] ++ spdPayload vendor product info

/-- The header word of the source descriptor (44_infoframes R153). -/
def spdHeader : Word := pack4 Config.spdType Config.spdVersion Config.spdLength 0

/-- The seven payload words s0 to s6 of the source descriptor (44_infoframes R153, 90_conflicts C2). -/
structure SpdWords where
  s0 : Word
  s1 : Word
  s2 : Word
  s3 : Word
  s4 : Word
  s5 : Word
  s6 : Word
  deriving DecidableEq, Repr

/-- SPD_ENCODE(vendor, product, info), payload words (44_infoframes R153). -/
def spdEncode (vendor : Vector Byte 8) (product : Vector Byte 16) (info : Byte) : SpdWords where
  s0 := pack4 (checksum (spdBytes vendor product info)) (ascii7 vendor[0]) (ascii7 vendor[1]) (ascii7 vendor[2])
  s1 := pack4 (ascii7 vendor[3]) (ascii7 vendor[4]) (ascii7 vendor[5]) (ascii7 vendor[6])
  s2 := pack4 (ascii7 vendor[7]) (ascii7 product[0]) (ascii7 product[1]) (ascii7 product[2])
  s3 := pack4 (ascii7 product[3]) (ascii7 product[4]) (ascii7 product[5]) (ascii7 product[6])
  s4 := pack4 (ascii7 product[7]) (ascii7 product[8]) (ascii7 product[9]) (ascii7 product[10])
  s5 := pack4 (ascii7 product[11]) (ascii7 product[12]) (ascii7 product[13]) (ascii7 product[14])
  s6 := pack4 (ascii7 product[15]) info 0 0

/-- The nine register writes of SPD_EMIT: header, the words without checksum, the word with it, SEND
(44_infoframes R154). -/
def spdWrites (w : SpdWords) : List (TxReg × Word) :=
  [ (.spdHdr, spdHeader), (.spd1, w.s1), (.spd2, w.s2), (.spd3, w.s3), (.spd4, w.s4), (.spd5, w.s5), (.spd6, w.s6),
    (.spd0, w.s0), (.spdCtrl, 1) ]

/-- SPD_EMIT() (44_infoframes R154). -/
def spdEmit (s : State) : State :=
  txWrites (spdWrites (spdEncode s.cfg.vendorName s.cfg.productDesc s.cfg.spdSourceInfo)) s

/-- `b5`: four bits of level shift at `[6:3]`, one of down-mix at `[7]` (44_infoframes R155). -/
def ainfoData5 (levelShift downMix : Nat) : Byte :=
  (BitVec.ofNat 8 (levelShift % 16) <<< 3) ||| (BitVec.ofNat 8 (downMix % 2) <<< 7)

/-- The six terms the audio-info checksum sums (44_infoframes R155). -/
def ainfoBytes (codes : ChannelCodes) (levelShift downMix : Nat) : List Byte :=
  [ Config.ainfoType, Config.ainfoVersion, Config.ainfoLength,
    codes.count, codes.allocation, ainfoData5 levelShift downMix ]

/-- AINFO_ENCODE for the codes `AUDIO_CHANNEL_TABLE[channels]`: the words a0, a1 (44_infoframes R155). -/
def ainfoEncode (codes : ChannelCodes) (levelShift downMix : Nat) : Word × Word :=
  ( pack4 (checksum (ainfoBytes codes levelShift downMix)) codes.count 0 0,
    pack4 codes.allocation (ainfoData5 levelShift downMix) 0 0 )

/-- The three register writes of AINFO_EMIT (44_infoframes R156). -/
def ainfoWrites (w : Word × Word) : List (TxReg × Word) :=
  [(.audioInfo0, w.1), (.audioInfo1, w.2), (.audioInfoCtrl, 1)]

/-- AINFO_EMIT(channels, levelShift, downMix) (44_infoframes R156). -/
def ainfoEmit (channels : ChannelCount) (levelShift downMix : Nat) (s : State) : State :=
  txWrites (ainfoWrites (ainfoEncode (s.cfg.audioChannelTable.codes channels) levelShift downMix)) s

/-- CHECKSUM has no state; its result goes to the caller (44_infoframes R150). -/
def execChecksum (bytes : List Byte) (s : State) : Outcome := .next (returning (.byte (checksum bytes)) s)

/-- AVI_EMIT (44_infoframes R152). -/
def execAviEmit (id : FormatId) (scanInfo : BitVec 2) (s : State) : Outcome := .next (aviEmit id scanInfo s)

/-- SPD_EMIT (44_infoframes R154). -/
def execSpdEmit (s : State) : Outcome := .next (spdEmit s)

/-- AINFO_EMIT (44_infoframes R156). -/
def execAinfoEmit (channels : ChannelCount) (levelShift downMix : Nat) (s : State) : Outcome :=
  .next (ainfoEmit channels levelShift downMix s)

end Sys2Proof.Machine
end

