-- ==== Sys2Proof/Machine/Audio.lean ====
section
/-! DEFINITION. Audio enable and the audio-drain supervisor: AUDIO_ENABLE and AUDIO_DRAIN (43_audio_drain). -/

namespace Sys2Proof.Machine

/-- AUDIO_ENABLE: clock recovery, the audio-info packet and the audio-active signal, or one report
(43_audio_drain R136). -/
def audioEnable (s : State) : State :=
  match acrCalc s.cfg s.ts.pixelClockHz s.ts.audioSampleRate with
  | none => emit (.report .unsupportedFormat) s
  | some _ =>
    emit (.audioChanged true)
      (ainfoEmit s.cfg.audioChannels s.cfg.levelShift.toNat s.cfg.downMix.toNat
        (acrSetup s.ts.pixelClockHz s.ts.audioSampleRate s))

/-- The drain is over: WORKER goes on to step P3 (43_audio_drain R135). -/
def drained (s : State) : State := { s with spWorker := .powerOffTask .p3 }

/-- What a poll that finds the engine still active does: the next attempt, the next round with the audio-off notification
asserted again, or the report of a drain failure (43_audio_drain R135). -/
def stillActive (s : State) : State :=
  if s.drainAttempt < s.cfg.drainAttempts then { s with drainAttempt := s.drainAttempt + 1 }
  else if s.drainRound < s.cfg.drainRounds then
    emit (.audioChanged false) { s with drainRound := s.drainRound + 1, drainAttempt := 1 }
  else drained (emit (.report .drainTimeout) s)

/-- Step P2 of POWEROFF_TASK, one poll of the audio engine (43_audio_drain R135). -/
def drainPoll (s : State) : State :=
  if readEngineActive s then stillActive (noteRead .audioCfg s) else drained (noteRead .audioCfg s)

/-- AUDIO_ENABLE (43_audio_drain R136). -/
def execAudioEnable (s : State) : Outcome := .next (audioEnable s)

/-- AUDIO_DRAIN: one poll, taken while `sp.WORKER = (POWEROFF_TASK, P2)` (43_audio_drain R135); otherwise WORKER has no such
step and nothing changes (log 11). -/
def execAudioDrain (s : State) : Outcome :=
  .next (if s.spWorker = .powerOffTask .p2 then drainPoll s else s)

end Sys2Proof.Machine
end

