-- ==== Sys2Proof/Machine/Hotplug.lean ====
section
/-! DEFINITION. The hot-plug state machine: SET_HPD, TEARDOWN, ARM_SENSE, CONN_IRQ, HPD_TASK, SUSPEND, RESUME and the queries
(40_hotplug_fsm). -/

namespace Sys2Proof.Machine

/-- Steps 3 to 7 of SET_HPD 1 once the hot-plug domain is up: reset and initialise the physical layer, HPD_ARMED, polarity
with delivery off, delivery on with polarity toggled, polarity back (40_hotplug_fsm R81). -/
def armHotplug (s : State) : State :=
  let s1 := emit .callInitializePhysicalLayer (emit .callResetPhysicalLayer s)
  txWrites [(.hpdIntCtrl, 0x2), (.hpdIntCtrl, 0x4), (.hpdIntCtrl, 0x6)]
    { s1 with ts := { s1.ts with hpdState := .hpdArmed } }

/-- SET_HPD 1 (40_hotplug_fsm R81). -/
def setHpd1 (s : State) : State :=
  if s.ts.hpdState ≠ .hpdOff then complete 0x01 s
  else if drawEnable .hotplug s then complete 0x01 (armHotplug (enableDomain .hotplug s))
  else raise .powerDomainFailure 0x01 (enableDomain .hotplug s)

/-- TEARDOWN: delivery off, nothing pending, no queued HPD task, the hot-plug domain off, HPD_OFF (40_hotplug_fsm R83). -/
def teardown (s : State) : State :=
  let s1 := txWrite .hpdIntCtrl 0x0 s
  let s2 := disableDomain .hotplug { s1 with intPending := false, hpdTaskPending := false, wq := s1.wq.filter (· ≠ .hpd) }
  { s2 with ts := { s2.ts with hpdState := .hpdOff } }

/-- SET_HPD 0: nothing while off, deferred while the panel is on, else Teardown (40_hotplug_fsm R82). -/
def setHpd0 (s : State) : State :=
  if s.ts.hpdState = .hpdOff then complete 0x01 s
  else if s.ts.panelPoweredOn then complete 0x01 { s with ts := { s.ts with hotplugOffPending := true } }
  else complete 0x01 (teardown s)

/-- ARM_SENSE: watch for the opposite of the logical connection state (40_hotplug_fsm R84). -/
def armSense (s : State) : State :=
  txWrite .hpdIntCtrl (watchWord (s.ts.connectionState ≠ .connected)) s

/-- Schedule the hot-plug transition task, once (40_hotplug_fsm R85). -/
def scheduleHpdTask (s : State) : State :=
  if s.hpdTaskPending then s else { s with hpdTaskPending := true, wq := s.wq ++ [.hpd] }

/-- CONN_IRQ: read the status; if an interrupt is pending, acknowledge and schedule (40_hotplug_fsm R85). -/
def connIrq (s : State) : State :=
  if (txRead .hpdIntStatus s).getLsbD 0 then
    scheduleHpdTask (txWrite .hpdIntAck 0x1 (noteRead .hpdIntStatus s))
  else noteRead .hpdIntStatus s

/-- The state machine's state for a sample of the line (40_hotplug_fsm R86 step T4). -/
def sampledState (connected : Bool) : HpdState := if connected then .connected else .disconnected

/-- The connection state for a sample of the line (40_hotplug_fsm R86 step T6). -/
def sampledConnection (connected : Bool) : Connection := if connected then .connected else .disconnected

/-- Step T6 of HPD_TASK: the new state, the new logical state published, the event seen (40_hotplug_fsm R86). -/
def publishConnection (connected : Bool) (s : State) : State :=
  emit (.connChanged (sampledConnection connected))
    { s with
      ts := { s.ts with hpdState := sampledState connected, connectionState := sampledConnection connected }
      hpdEventSeen := true }

/-- Steps T3 to T6 of HPD_TASK for a sample of the line (40_hotplug_fsm R86). -/
def hpdTransition (connected : Bool) (s : State) : State :=
  let s1 := txWrite .hpdIntCtrl (watchWord (!connected)) s
  if s1.ts.hpdState = sampledState connected then s1
  else publishConnection connected (if connected then readSink s1 else s1)

/-- HPD_TASK, from WORKER's removal of the head of `wq` on (40_hotplug_fsm R86). -/
def hpdTask (s : State) : State :=
  let s1 := { s with wq := s.wq.tail, hpdTaskPending := false }
  if s1.ts.hpdState = .hpdOff then s1
  else hpdTransition (readSenseBit s1) (noteRead .hpdIntStatus s1)

/-- HPD_TASK is enabled: WORKER is idle and the head of `wq` is HPD (30_encoding R64). -/
def hpdTaskEnabled (s : State) : Bool := s.spWorker == .idle && s.wq.head? == some .hpd

/-- Step W of RESUME (40_hotplug_fsm R89). -/
def resumeW (s : State) : State :=
  if s.ts.panelSuspended = false ∨ s.ts.hpdState = .hpdOff then
    complete 0x05 { s with ts := { s.ts with panelSuspended := false } }
  else { s with hpdEventSeen := false, spHost := .resume .b }

/-- Step B of RESUME forces a publication: timed out, hot-plug armed, no sink (40_hotplug_fsm R89). -/
def resumeForces (s : State) : Bool :=
  !s.hpdEventSeen && s.ts.hpdState != .hpdOff && s.ts.connectionState == .disconnected

/-- Step B of RESUME (40_hotplug_fsm R89). -/
def resumeB (s : State) : State :=
  let s1 := if resumeForces s then emit (.connChanged .disconnected) s else s
  complete 0x05 { s1 with ts := { s1.ts with panelSuspended := false } }

/-- RESUME: its next step; at B while the wait has not ended, HOST has no step and nothing changes
(40_hotplug_fsm R89, log 11). -/
def resume (s : State) : State :=
  if s.spHost = .resume .b then (if resumeReady s then resumeB s else s) else resumeW s

/-- SET_HPD with b = 1 (40_hotplug_fsm R81). -/
def execSetHpd1 (s : State) : Outcome := .next (setHpd1 s)

/-- SET_HPD with b = 0 (40_hotplug_fsm R82). -/
def execSetHpd0 (s : State) : Outcome := .next (setHpd0 s)

/-- TEARDOWN (40_hotplug_fsm R83). -/
def execTeardown (s : State) : Outcome := .next (teardown s)

/-- ARM_SENSE (40_hotplug_fsm R84). -/
def execArmSense (s : State) : Outcome := .next (armSense s)

/-- CONN_IRQ; where it is not enabled, IRQ has no step and nothing changes (40_hotplug_fsm R85, log 11). -/
def execConnIrq (s : State) : Outcome := .next (if connIrqEnabled s then connIrq s else s)

/-- HPD_TASK; where it is not enabled, WORKER has no such step and nothing changes (40_hotplug_fsm R86, log 11). -/
def execHpdTask (s : State) : Outcome := .next (if hpdTaskEnabled s then hpdTask s else s)

/-- SUSPEND sets `panelSuspended` and nothing else (40_hotplug_fsm R88). -/
def execSuspend (s : State) : Outcome :=
  .next (complete 0x04 { s with ts := { s.ts with panelSuspended := true } })

/-- RESUME (40_hotplug_fsm R89). -/
def execResume (s : State) : Outcome := .next (resume s)

/-- QUERY_CONN: RDATA takes the stored connection state (40_hotplug_fsm R90). -/
def execQueryConn (s : State) : Outcome :=
  .next (complete 0x06 { s with rdata := s.ts.connectionState.code.setWidth 32 })

/-- QUERY_POWER: RDATA takes `panelPoweredOn` (40_hotplug_fsm R91). -/
def execQueryPower (s : State) : Outcome :=
  .next (complete 0x07 { s with rdata := bit s.ts.panelPoweredOn })

end Sys2Proof.Machine
end

