-- ==== Sys2Proof/Machine/Timing.lean ====
section
/-! DEFINITION. Video-timing lookup and timing-register programming: RESOLVE_TIMING and TIMING_PROG (42_timing). -/

namespace Sys2Proof.Machine

/-- The first geometry row that matches, in table order (42_timing R121). -/
def geometryMatch (c : Config) (xres yres frameRate : Word) : Option GeometryRow :=
  c.geometryTable.find? fun g => g.xres == xres && g.yres == yres && g.frameRate == frameRate

/-- The id the lookup picks: a supported non-zero id, else the first geometry match, else the default (42_timing R121). -/
def resolveId (c : Config) (fmt : FormatId) (xres yres frameRate : Word) : FormatId :=
  if fmt ≠ 0 ∧ c.supports fmt then fmt
  else match geometryMatch c xres yres frameRate with
    | some g => g.format
    | none => c.defaultFormat

/-- `TIMING_TABLE[id]`; for an unsupported id, which 70_reset_and_hazards R207 excludes here, a free value (log 9). -/
def timingOf (c : Config) (id : FormatId) : VideoTiming :=
  (c.timing? id).getD (Config.freeTiming id)

/-- The lookup of RESOLVE_TIMING: the pair (id, t) (42_timing R121). -/
def resolveTiming (c : Config) (fmt : FormatId) (xres yres frameRate : Word) : FormatId × VideoTiming :=
  (resolveId c fmt xres yres frameRate, timingOf c (resolveId c fmt xres yres frameRate))

/-- `total_h(t)`, exact (42_timing R122). -/
def totalH (t : VideoTiming) : Int :=
  t.activeH.toNat + t.frontPorchH.toNat + t.backPorchH.toNat + t.pulseWidthH.toNat - 1

/-- `total_v(t)`, exact (42_timing R122). -/
def totalV (t : VideoTiming) : Int :=
  t.activeV.toNat + t.frontPorchV.toNat + t.backPorchV.toNat + t.pulseWidthV.toNat - 1

/-- `start_h` (42_timing R123). -/
def startH (t : VideoTiming) : Int := t.backPorchH.toNat + t.pulseWidthH.toNat

/-- `end_h` (42_timing R123). -/
def endH (t : VideoTiming) : Int := totalH t + 1 - t.frontPorchH.toNat

/-- `start_v` (42_timing R123). -/
def startV (t : VideoTiming) : Int := t.backPorchV.toNat + t.pulseWidthV.toNat - 1

/-- `end_v` (42_timing R123). -/
def endV (t : VideoTiming) : Int := totalV t - t.frontPorchV.toNat

/-- The word of FRAME_CTRL (42_timing R123 write 6, 10_state R22). -/
def frameCtrlWord (t : VideoTiming) : Word :=
  (bit t.interlaced <<< 31) ||| (bit t.activeLowV <<< 29) ||| (bit t.activeLowH <<< 28)

/-- The six register writes of TIMING_PROG, in order (42_timing R123). -/
def timingWrites (t : VideoTiming) : List (TxReg × Word) :=
  [ (.total, pack12 (f12 (totalV t)) (f12 (totalH t))),
    (.activeH, pack12 (f12 (endH t)) (f12 (startH t))),
    (.activeV, pack12 (f12 (endV t)) (f12 (startV t))),
    (.vTotalF2, if t.interlaced then pack12 0 (f12 (totalV t + 1)) else 0),
    (.activeVF2, if t.interlaced then pack12 (f12 (endV t + 1)) (f12 (startV t + 1)) else 0),
    (.frameCtrl, frameCtrlWord t) ]

/-- TIMING_PROG(t) (42_timing R123). -/
def timingProg (t : VideoTiming) (s : State) : State := txWrites (timingWrites t) s

/-- RESOLVE_TIMING reads and writes no state of the engine; its result goes to the caller (42_timing R121). -/
def execResolveTiming (fmt : FormatId) (xres yres frameRate : Word) (s : State) : Outcome :=
  let r := resolveTiming s.cfg fmt xres yres frameRate
  .next (returning (.timing r.1 r.2) s)

/-- TIMING_PROG (42_timing R123). -/
def execTimingProg (t : VideoTiming) (s : State) : Outcome := .next (timingProg t s)

end Sys2Proof.Machine
end

