-- ==== Sys2Proof/Machine/Power.lean ====
section
/-! DEFINITION. The power sequencer: POWER_ON, POWER_OFF, POWEROFF_TASK, SET_AUDIO_RATE (41_power_sequencer). -/

namespace Sys2Proof.Machine

/-- Step W of POWER_ON: the armed check, the already-on check, then wait (41_power_sequencer R100, 60_exceptions R191). -/
def powerOnW (a : PowerOnArgs) (s : State) : State :=
  if s.ts.hpdState = .hpdOff then raise .preconditionViolation 0x02 s
  else if alreadyOn s then raise .preconditionViolation 0x02 s
  else { s with spHost := .powerOn .b a }

/-- Step B4 of POWER_ON: commit the format, the geometry and the pixel clock (41_power_sequencer R100). -/
def commitTiming (a : PowerOnArgs) (id : FormatId) (t : VideoTiming) (s : State) : State :=
  { s with ts := { s.ts with
      activeFormat := id
      xres := a.xres
      yres := a.yres
      frameRate := a.frameRate
      pixelClockHz := t.pixelFreqKHz * 1000 } }

/-- The five writes of step B5: the core block and the four packets off (41_power_sequencer R100). -/
def disableWrites : List (TxReg × Word) :=
  [(.ctrl, 0), (.aviCtrl, 0), (.spdCtrl, 0), (.audioInfoCtrl, 0), (.acrPktCtrl, 0)]

/-- The word of step B7: ENABLE, and HDMI_MODE unless the sink is in basic mode (41_power_sequencer R100, 10_state R21). -/
def enableWord (basicMode : Bool) : Word := if basicMode then 0x1 else 0x3

/-- Steps B5 to B7: off, timing, on (41_power_sequencer R100). -/
def programLink (t : VideoTiming) (s : State) : State :=
  txWrite .ctrl (enableWord s.sinkInfo.basicMode) (timingProg t (txWrites disableWrites s))

/-- Steps B8 to B11: audio unless basic mode, the AVI packet, the source descriptor, the sense polarity
(41_power_sequencer R100). -/
def emitPackets (s : State) : State :=
  let s1 := if s.sinkInfo.basicMode then s else audioEnable s
  armSense (spdEmit (aviEmit s.ts.activeFormat s.sinkInfo.scanInfo s1))

/-- Step B12 of POWER_ON (41_power_sequencer R100). -/
def powerOnDone (s : State) : State :=
  complete 0x02 { s with ts := { s.ts with panelPoweredOn := true } }

/-- Steps B4 to B12 of POWER_ON, both domains up (41_power_sequencer R100). -/
def bringUp (a : PowerOnArgs) (s : State) : State :=
  let r := resolveTiming s.cfg a.fmt a.xres a.yres a.frameRate
  powerOnDone (emitPackets (programLink r.2 (commitTiming a r.1 r.2 s)))

/-- Step B of POWER_ON: the second armed check, core then CEC with rollback, then the link (41_power_sequencer R100). -/
def powerOnB (a : PowerOnArgs) (s : State) : State :=
  if s.ts.hpdState = .hpdOff then raise .preconditionViolation 0x02 s
  else if !drawEnable .core s then raise .powerDomainFailure 0x02 (enableDomain .core s)
  else if !drawEnable .cec s then
    raise .powerDomainFailure 0x02 (disableDomain .core (enableDomain .cec (enableDomain .core s)))
  else bringUp a (enableDomain .cec (enableDomain .core s))

/-- POWER_ON: its next step; at B while a power-off is pending, HOST has no step and nothing changes
(41_power_sequencer R100, log 11). The operands of a POWER_ON in flight are the ones it read (30_encoding R67). -/
def powerOn (fmt : FormatId) (s : State) : State :=
  match s.spHost with
  | .powerOn .b a => if s.offPending then s else powerOnB a s
  | .powerOn .w a => powerOnW a s
  | .idle => powerOnW (powerOnArgs fmt s) s
  | .resume _ => powerOnW (powerOnArgs fmt s) s

/-- POWER_OFF: queue one task, unless off or already pending, and return at once (41_power_sequencer R101). -/
def powerOff (s : State) : State :=
  if s.ts.panelPoweredOn = true ∧ s.offPending = false then
    complete 0x03 { s with offPending := true, wq := s.wq ++ [.off] }
  else complete 0x03 s

/-- Step P1 of POWEROFF_TASK (41_power_sequencer R102). -/
def powerOffP1 (s : State) : State :=
  emit (.audioChanged false) { s with drainRound := 1, drainAttempt := 1, spWorker := .powerOffTask .p2 }

/-- The first part of step P3: core block, physical layer, clock cache, both domains, the flag (41_power_sequencer R102). -/
def shutDown (s : State) : State :=
  let s1 := emit .callPowerDownPhysicalLayer (txWrite .ctrl 0x0 s)
  let s2 := disableDomain .cec (disableDomain .core { s1 with ts := { s1.ts with pixelClockHz := 0 } })
  { s2 with ts := { s2.ts with panelPoweredOn := false } }

/-- The second part of step P3: the deferred hot-plug disable, or re-arm, never both (41_power_sequencer R102). -/
def settleHotplug (s : State) : State :=
  if s.ts.hotplugOffPending then
    let s1 := teardown s
    { s1 with ts := { s1.ts with hotplugOffPending := false } }
  else armSense s

/-- Step P3 of POWEROFF_TASK (41_power_sequencer R102). -/
def powerOffP3 (s : State) : State :=
  { settleHotplug (shutDown s) with offPending := false, spWorker := .idle }

/-- POWEROFF_TASK: its next step; WORKER takes it from the head of `wq` when idle, and has no such step otherwise
(41_power_sequencer R102, log 11). -/
def powerOffTask (s : State) : State :=
  match s.spWorker with
  | .powerOffTask .p1 => powerOffP1 s
  | .powerOffTask .p2 => drainPoll s
  | .powerOffTask .p3 => powerOffP3 s
  | .idle => if s.wq.head? = some .off then powerOffP1 { s with wq := s.wq.tail } else s

/-- POWER_ON (41_power_sequencer R100). -/
def execPowerOn (fmt : FormatId) (s : State) : Outcome := .next (powerOn fmt s)

/-- POWER_OFF (41_power_sequencer R101). -/
def execPowerOff (s : State) : Outcome := .next (powerOff s)

/-- POWEROFF_TASK (41_power_sequencer R102). -/
def execPowerOffTask (s : State) : Outcome := .next (powerOffTask s)

/-- SET_AUDIO_RATE: the rate of the next AUDIO_ENABLE (41_power_sequencer R103). -/
def execSetAudioRate (rate : SampleRate) (s : State) : Outcome :=
  .next (complete 0x08 { s with ts := { s.ts with audioSampleRate := rate } })

end Sys2Proof.Machine
end

