-- ==== Sys2Proof/Machine/Dispatch.lean ====
section
/-! DEFINITION. The meaning of every operation, one arm a constructor. -/

namespace Sys2Proof.Machine

def exec (i : Instr) (s : State) : Host.Outcome State Fault Refusal :=
  match i with
  -- host commands
  | .setHpd1 => Sys2Proof.Machine.execSetHpd1 s
  | .setHpd0 => Sys2Proof.Machine.execSetHpd0 s
  | .powerOn fmt => Sys2Proof.Machine.execPowerOn fmt s
  | .powerOff => Sys2Proof.Machine.execPowerOff s
  | .suspend => Sys2Proof.Machine.execSuspend s
  | .resume => Sys2Proof.Machine.execResume s
  | .queryConn => Sys2Proof.Machine.execQueryConn s
  | .queryPower => Sys2Proof.Machine.execQueryPower s
  | .setAudioRate rate => Sys2Proof.Machine.execSetAudioRate rate s
  -- asynchronous operations
  | .connIrq => Sys2Proof.Machine.execConnIrq s
  | .hpdTask => Sys2Proof.Machine.execHpdTask s
  | .powerOffTask => Sys2Proof.Machine.execPowerOffTask s
  -- internal functions
  | .resolveTiming fmt xres yres frameRate => Sys2Proof.Machine.execResolveTiming fmt xres yres frameRate s
  | .timingProg t => Sys2Proof.Machine.execTimingProg t s
  | .audioEnable => Sys2Proof.Machine.execAudioEnable s
  | .audioDrain => Sys2Proof.Machine.execAudioDrain s
  | .checksum bytes => Sys2Proof.Machine.execChecksum bytes s
  | .aviEmit id scanInfo => Sys2Proof.Machine.execAviEmit id scanInfo s
  | .spdEmit => Sys2Proof.Machine.execSpdEmit s
  | .ainfoEmit channels levelShift downMix => Sys2Proof.Machine.execAinfoEmit channels levelShift downMix s
  | .acrCalc clockHz rate => Sys2Proof.Machine.execAcrCalc clockHz rate s
  | .acrSetup clockHz rate => Sys2Proof.Machine.execAcrSetup clockHz rate s
  | .armSense => Sys2Proof.Machine.execArmSense s
  | .teardown => Sys2Proof.Machine.execTeardown s

end Sys2Proof.Machine
end

