-- ==== Sys2Proof/Machine/Agents.lean ====
section
/-! DEFINITION. The agents' moves: HOST's accesses to its port and its pending step, IRQ's handler, WORKER's next step,
ENV's change of the line, and which of them the next stimulus names (00_scope R8, 20_memory R50, 60_exceptions R191, R194). -/

namespace Sys2Proof.Machine

/-- An illegal word of CMD: ERR is IllegalCommand and `Done(CMD[7:0], 6)` is recorded, nothing else
(30_encoding R61, R68). -/
def illegalCommand (w : Word) (s : State) : State := raise .illegalCommand (cmdOp w) s

/-- A write of CMD: ignored while BUSY, else BUSY rises and the decoded command runs (10_state R11, 30_encoding R61). -/
def writeCmd (w : Word) (s : State) : Outcome :=
  if s.busy then .next s
  else match decode w with
    | .ok i => exec i { s with cmd := w, busy := true }
    | .error _ => .next (illegalCommand w { s with cmd := w, busy := true })

/-- HOST writes a word at a byte offset of its port: CMD issues a command, ARG0..ARG2 take the word, any other write is
ignored (20_memory R41, R45; a write of ARG while BUSY: log 10). -/
def hostWrite (offset : Nat) (v : Word) (s : State) : Outcome :=
  match hpReg offset with
  | some .cmd => writeCmd v s
  | some .arg0 => .next { s with arg0 := v }
  | some .arg1 => .next { s with arg1 := v }
  | some .arg2 => .next { s with arg2 := v }
  | some .result => .next s
  | some .rdata => .next s
  | none => .next s

/-- HOST's pending step: the next step of the command in flight, none when idle (10_state R12). -/
def hostStep (s : State) : Outcome :=
  match s.spHost with
  | .idle => .next s
  | .powerOn _ a => exec (.powerOn a.fmt) s
  | .resume _ => exec .resume s

/-- WORKER's next step: of the task it is in, else of the task at the head of `wq`, none when `wq` is empty
(10_state R17). -/
def workerStep (s : State) : Outcome :=
  match s.spWorker with
  | .powerOffTask _ => exec .powerOffTask s
  | .idle =>
    match s.wq with
    | .hpd :: _ => exec .hpdTask s
    | .off :: _ => exec .powerOffTask s
    | [] => .next s

/-- One agent's move (00_scope R8). A read of the host port changes nothing; what it returns is `hpRead` (20_memory R46). -/
def act (a : Action) (s : State) : Outcome :=
  match a with
  | .hostWrite offset v => hostWrite offset v s
  | .hostRead _ => .next s
  | .hostStep => hostStep s
  | .irq => exec .connIrq s
  | .worker => workerStep s
  | .setSense level => .next (changeSense level s)

/-- The stimulus the step takes: the first of the agenda, else the free one of this step number (log 1). -/
def nextStimulus (s : State) : Stimulus :=
  match s.agenda with
  | [] => Config.freeStimulus s.tick
  | x :: _ => x

/-- The state a move starts from: the stimulus taken off the agenda, the step counted, ENV's answers in place (log 1, 4). -/
def prepare (s : State) : State :=
  { s with agenda := s.agenda.tail, tick := s.tick + 1, draws := (nextStimulus s).draws }

/-- One transition of one agent (20_memory R50). -/
def takeStep (s : State) : Outcome := act (nextStimulus s).action (prepare s)

/-- HOST idle and about to write this command word: what makes the very next step run it (log 13). -/
def issue (w : Word) (s : State) : State :=
  { s with busy := false, spHost := .idle, agenda := ⟨.hostWrite 0x00 w, s.draws⟩ :: s.agenda }

end Sys2Proof.Machine
end

