-- ==== Sys2Proof/Machine/Step.lean ====
section
/-! DEFINITION. The step of the whole machine, and how a command word comes to be the next thing that runs. -/

namespace Sys2Proof.Machine

/-- One transition of one agent (20_memory R50). -/
def step (s : State) : Host.Outcome State Fault Refusal := takeStep s

/-- `s` with the command word of these bits as the next thing HOST writes to CMD. The engine fetches no instructions
(10_state R12): a command runs because HOST writes it, so this puts that write first on the agenda and makes HOST idle,
which is what the write needs to be accepted (log 13). -/
def State.withFetchWord (s : State) (nbits w : Nat) : State := issue (commandWord nbits w) s

end Sys2Proof.Machine
end

