-- ==== Sys2Proof/Machine/Script.lean ====
section
/-! DEFINITION. The script syntax of 30_encoding R71 as data: command lines, pseudo-commands and directives, each expanded to
the moves it stands for and to what it goes on with, and a line run whole. -/

namespace Sys2Proof.Machine

/-- A line of a script (30_encoding R71). WORKER stands with the step label it is given, or with none. The draws of a
directive `ENV draw` are those of the answers the line is run with (log 16). -/
inductive ScriptLine where
  | setHpd (b : Bool)
  | powerOn (fmt : FormatId) (xres yres fps : Word)
  | powerOff
  | suspend
  | resume
  | queryConn
  | queryPower
  | setAudioRate (r : SampleRate)
  | hpdOn
  | hpdOff
  | powerOnGeom (xres yres fps : Word)
  | envSense (level : Bool)
  | irq
  | worker (label : Option TaskLabel)
  deriving DecidableEq, Repr

/-- The write of CMD that issues an operation; none for one HOST cannot issue (30_encoding R62). -/
def writeCommand (i : Instr) : List Action :=
  match encode i with
  | some w => [.hostWrite 0x00 w]
  | none => []

/-- The writes that issue a POWER_ON: the three ARG registers, then CMD (30_encoding R71). -/
def writePowerOn (fmt : FormatId) (xres yres fps : Word) : List Action :=
  [.hostWrite 0x04 xres, .hostWrite 0x08 yres, .hostWrite 0x0C fps] ++ writeCommand (.powerOn fmt)

/-- The moves a line starts with (30_encoding R71). -/
def ScriptLine.moves : ScriptLine → List Action
  | .setHpd true => writeCommand .setHpd1
  | .setHpd false => writeCommand .setHpd0
  | .powerOn fmt xres yres fps => writePowerOn fmt xres yres fps
  | .powerOff => writeCommand .powerOff
  | .suspend => writeCommand .suspend
  | .resume => writeCommand .resume
  | .queryConn => writeCommand .queryConn
  | .queryPower => writeCommand .queryPower
  | .setAudioRate r => writeCommand (.setAudioRate r)
  | .hpdOn => writeCommand .setHpd1
  | .hpdOff => writeCommand .setHpd0
  | .powerOnGeom xres yres fps => writePowerOn 0 xres yres fps
  | .envSense level => [.setSense level]
  | .irq => [.irq]
  | .worker _ => [.worker]

/-- The move a line goes on with after its first ones, none when it is over: HOST's pending step while a command line waits
for BUSY = 0, WORKER's next step while the task of a line without a label is not complete (30_encoding R71). -/
def ScriptLine.goesOn (l : ScriptLine) (s : State) : Option Action :=
  let wait := if s.busy then some .hostStep else none
  match l with
  | .setHpd _ => wait
  | .powerOn _ _ _ _ => wait
  | .powerOff => wait
  | .suspend => wait
  | .resume => wait
  | .queryConn => wait
  | .queryPower => wait
  | .setAudioRate _ => wait
  | .hpdOn => wait
  | .hpdOff => wait
  | .powerOnGeom _ _ _ => wait
  | .envSense _ => none
  | .irq => none
  | .worker none => if s.spWorker = .idle then none else some .worker
  | .worker (some _) => none

/-- The step in which an agent makes this move with these answers of ENV. -/
def takeMove (a : Action) (d : Draws) (s : State) : Outcome := step { s with agenda := ⟨a, d⟩ :: s.agenda }

/-- The rest of a line: the moves still to make, then what it goes on with, one answer of ENV for each step; it stands still
where the answers run out (log 16). -/
def ScriptLine.runFrom (l : ScriptLine) : List Action → List Draws → State → Outcome
  | _, [], s => .next s
  | a :: as, d :: ds, s =>
    match takeMove a d s with
    | .next t => l.runFrom as ds t
    | .fault r => .fault r
    | .refused r => .refused r
  | [], d :: ds, s =>
    match l.goesOn s with
    | none => .next s
    | some a =>
      match takeMove a d s with
      | .next t => l.runFrom [] ds t
      | .fault r => .fault r
      | .refused r => .refused r

/-- A line run whole with these answers of ENV (30_encoding R71). -/
def ScriptLine.run (l : ScriptLine) (answers : List Draws) (s : State) : Outcome := l.runFrom l.moves answers s

end Sys2Proof.Machine
end

