-- ==== Sys2Proof/Safety.lean ====
section
/-! DEFINITION. What counts as a safe run: the invariant of every reachable state (10_state R15, R17, 60_exceptions R187),
the power states (60_exceptions R199), and what a trace says of the registers and the power domains. -/

namespace Sys2Proof.Machine

/-- Every reserved bit of every register is 0 (10_state section 5, 93_implementation_defined U4). -/
def reservedZero (t : TxRegs) : Prop := ∀ r : TxReg, t.get r &&& ~~~r.mask = 0

/-- The connection state agrees with the hot-plug state where both name one (10_state R15 I-c). -/
def connectionAgrees (ts : TransmitterState) : Prop :=
  (ts.hpdState = .connected → ts.connectionState = .connected)
    ∧ (ts.hpdState = .disconnected → ts.connectionState = .disconnected)

/-- WORKER is inside POWEROFF_TASK (10_state R12). -/
def inPowerOff (s : State) : Prop := s.spWorker ≠ .idle

/-- The drain counters are in their ranges while the drain or what follows it runs (10_state R32). -/
def countersInRange (s : State) : Prop :=
  s.spWorker = .powerOffTask .p2 ∨ s.spWorker = .powerOffTask .p3 →
    1 ≤ s.drainRound ∧ s.drainRound ≤ s.cfg.drainRounds ∧ 1 ≤ s.drainAttempt ∧ s.drainAttempt ≤ s.cfg.drainAttempts

/-- The error codes RESULT.ERR can hold: 0, 1, 2 and 6 (60_exceptions R185). -/
def raisedCode (e : Byte) : Prop := e = 0 ∨ e = 1 ∨ e = 2 ∨ e = 6

/-- Between transitions a sequence pointer names a step that waits, never a first step (10_state R12, 20_memory R50). -/
def pointersRest (s : State) : Prop :=
  (∀ a, s.spHost ≠ .powerOn .w a) ∧ s.spHost ≠ .resume .w ∧ s.spWorker ≠ .powerOffTask .p1

/-- The invariant of the engine: what every reachable state satisfies. -/
structure Inv (s : State) : Prop where
  /-- 00_scope R5, 10_state R31: the parameters with a fixed value have it. -/
  fixed : s.cfg.fixedOk = true
  /-- 10_state R15 I-a. -/
  poweredArmed : s.ts.panelPoweredOn = true → s.ts.hpdState ≠ .hpdOff
  /-- 10_state R15 I-c. -/
  connection : connectionAgrees s.ts
  /-- 10_state R15 I-d. -/
  deferredPowered : s.ts.hotplugOffPending = true → s.ts.panelPoweredOn = true
  /-- 10_state R15 I-e. -/
  pendingPowered : s.offPending = true → s.ts.panelPoweredOn = true
  /-- 10_state R15 I-f, between transitions. -/
  coreFlag : s.enabled.core = s.ts.panelPoweredOn
  /-- 10_state R15 I-f, between transitions. -/
  cecFlag : s.enabled.cec = s.ts.panelPoweredOn
  /-- 10_state R15 I-f. -/
  hotplugFlag : s.enabled.hotplug = s.ts.hpdInitialized
  /-- Delivery is enabled exactly while armed (60_exceptions R187). -/
  delivery : intEnBit s.tx.hpdIntCtrl = s.ts.hpdInitialized
  /-- 60_exceptions R187: `intPending` implies INT_EN. -/
  pendingEnabled : s.intPending = true → intEnBit s.tx.hpdIntCtrl = true
  /-- 10_state R17: each task at most once. -/
  queueNodup : s.wq.Nodup
  /-- 10_state R17: HPD is queued exactly while `hpdTaskPending`. -/
  hpdQueued : Task.hpd ∈ s.wq ↔ s.hpdTaskPending = true
  /-- 40_hotplug_fsm R83: nothing is queued for HPD_TASK in HPD_OFF. -/
  offQuiet : s.ts.hpdState = .hpdOff → s.hpdTaskPending = false
  /-- 10_state R16, R17: a power-off is pending exactly while OFF is queued or its task runs. -/
  offQueued : (Task.off ∈ s.wq ∨ inPowerOff s) ↔ s.offPending = true
  /-- 10_state R17: at most one power-off task. -/
  offOnce : inPowerOff s → Task.off ∉ s.wq
  /-- 10_state R11, R12: BUSY exactly while a command is in flight. -/
  busyInFlight : s.busy = true ↔ s.spHost ≠ .idle
  /-- 41_power_sequencer R100: a waiting POWER_ON waits for a power-off, or the panel is off. -/
  waiting : ∀ a, s.spHost = .powerOn .b a → s.ts.panelPoweredOn = true → s.offPending = true
  /-- 10_state R32. -/
  counters : countersInRange s
  /-- 10_state R12. -/
  pointers : pointersRest s
  /-- 40_hotplug_fsm R90, R91: a query returns 0 or 1. -/
  dataBit : s.rdata = 0 ∨ s.rdata = 1
  /-- 60_exceptions R185. -/
  errCode : raisedCode s.err
  /-- 10_state section 5. -/
  reserved : reservedZero s.tx

/-- The three power states between transitions (60_exceptions R199). -/
inductive PowerState where
  | off | sensing | linkUp
  deriving DecidableEq, Repr

/-- The row of 60_exceptions R199 the state is in, none where it is in none. -/
def powerState (s : State) : Option PowerState :=
  if s.enabled = ⟨false, false, false⟩ ∧ s.ts.hpdState = .hpdOff ∧ s.ts.panelPoweredOn = false then some .off
  else if s.enabled = ⟨true, false, false⟩ ∧ s.ts.hpdState ≠ .hpdOff ∧ s.ts.panelPoweredOn = false then some .sensing
  else if s.enabled = ⟨true, true, true⟩ ∧ s.ts.hpdState ≠ .hpdOff ∧ s.ts.panelPoweredOn = true then some .linkUp
  else none

/-- The register at an offset of the TX map (20_memory R42). -/
def txReg? (offset : Nat) : Option TxReg :=
  [ TxReg.ctrl, .hpdIntCtrl, .hpdIntAck, .hpdIntStatus, .audioCfg, .total, .activeH, .activeV, .vTotalF2, .activeVF2,
    .frameCtrl, .aviCtrl, .aviInfo0, .aviInfo1, .aviInfo2, .aviInfo3, .spdCtrl, .spdHdr, .spd0, .spd1, .spd2, .spd3,
    .spd4, .spd5, .spd6, .audioInfoCtrl, .audioInfo0, .audioInfo1, .acrPktCtrl, .acr32v0, .acr32v1, .acr44v0, .acr44v1,
    .acr48v0, .acr48v1 ].find? fun r => r.offset == offset

/-- The registers after the RegWrite records of a list, in order; other records write nothing (10_state R30). -/
def replayWrites (t : TxRegs) : List Rec → TxRegs
  | [] => t
  | .regWrite offset v :: rest =>
    match txReg? offset with
    | some r => replayWrites (t.set r v) rest
    | none => replayWrites t rest
  | .regRead _ _ :: rest => replayWrites t rest
  | .callEnable _ _ :: rest => replayWrites t rest
  | .callDisable _ :: rest => replayWrites t rest
  | .callResetPhysicalLayer :: rest => replayWrites t rest
  | .callInitializePhysicalLayer :: rest => replayWrites t rest
  | .callPowerDownPhysicalLayer :: rest => replayWrites t rest
  | .callReadSinkDescriptor _ :: rest => replayWrites t rest
  | .connChanged _ :: rest => replayWrites t rest
  | .audioChanged _ :: rest => replayWrites t rest
  | .report _ :: rest => replayWrites t rest
  | .done _ _ :: rest => replayWrites t rest

/-- What the calls of a list say of domain `d`, from `on`: an enable only from off, a disable only from on, a failed enable
leaves it off; none where a call breaks the pairing (60_exceptions R196). -/
def replayDomain (d : Domain) (on : Bool) : List Rec → Option Bool
  | [] => some on
  | .callEnable e ok :: rest =>
    if e = d then (if on then none else replayDomain d ok rest) else replayDomain d on rest
  | .callDisable e :: rest =>
    if e = d then (if on then replayDomain d false rest else none) else replayDomain d on rest
  | .regWrite _ _ :: rest => replayDomain d on rest
  | .regRead _ _ :: rest => replayDomain d on rest
  | .callResetPhysicalLayer :: rest => replayDomain d on rest
  | .callInitializePhysicalLayer :: rest => replayDomain d on rest
  | .callPowerDownPhysicalLayer :: rest => replayDomain d on rest
  | .callReadSinkDescriptor _ :: rest => replayDomain d on rest
  | .connChanged _ :: rest => replayDomain d on rest
  | .audioChanged _ :: rest => replayDomain d on rest
  | .report _ :: rest => replayDomain d on rest
  | .done _ _ :: rest => replayDomain d on rest

/-- The trace records of a list of writes, in order (10_state R30). -/
def writeRecords (ws : List (TxReg × Word)) : List Rec := ws.map fun w => .regWrite w.1.offset w.2

/-- The records AUDIO_ENABLE adds (43_audio_drain R136). -/
def audioRecords (c : Config) (clockHz : Word) (rate : SampleRate) : List Rec :=
  match acrCalc c clockHz rate with
  | none => [.report .unsupportedFormat]
  | some r =>
    writeRecords (acrWrites r)
      ++ writeRecords (ainfoWrites (ainfoEncode (c.audioChannelTable.codes c.audioChannels) c.levelShift.toNat c.downMix.toNat))
      ++ [.audioChanged true]

/-- The records AVI_EMIT adds (44_infoframes R152). -/
def aviRecords (c : Config) (id : FormatId) (scanInfo : BitVec 2) : List Rec :=
  match aviEncode c id scanInfo with
  | none => [.report .unsupportedFormat]
  | some w => writeRecords (aviWrites w)

/-- The records a successful step B of POWER_ON adds before its `Done`, for a sink and a connection state
(41_power_sequencer R100). -/
def powerOnRecords (c : Config) (id : FormatId) (t : VideoTiming) (rate : SampleRate) (sink : SinkInfo)
    (connection : Connection) : List Rec :=
  [.callEnable .core true, .callEnable .cec true,
   .regWrite 0x00 0x0, .regWrite 0x2C 0x0, .regWrite 0x40 0x0, .regWrite 0x64 0x0, .regWrite 0x70 0x0]
    ++ writeRecords (timingWrites t)
    ++ [.regWrite 0x00 (if sink.basicMode then 0x1 else 0x3)]
    ++ (if sink.basicMode then [] else audioRecords c (t.pixelFreqKHz * 1000) rate)
    ++ aviRecords c id sink.scanInfo
    ++ writeRecords (spdWrites (spdEncode c.vendorName c.productDesc c.spdSourceInfo))
    ++ [.regWrite 0x04 (if connection = .connected then 0x4 else 0x6)]

/-- `s` after a host command ended: the trace gained `recs` and `Done(op, err)` (10_state R30, 60_exceptions R192). -/
def ended (op err : Byte) (recs : List Rec) (s : State) : State :=
  { s with err := err, busy := false, spHost := .idle, trace := s.trace ++ recs ++ [.done op err] }

/-- The words of CMD that run a command (30_encoding R61, R63, R68), read as numbers. -/
def legalCommandWord (w : Word) : Prop :=
  (w.toNat % 256 = 1 ∧ w.toNat / 512 = 0) ∨
  (w.toNat % 256 = 2 ∧ w.toNat / 65536 = 0) ∨
  (3 ≤ w.toNat % 256 ∧ w.toNat % 256 ≤ 7 ∧ w.toNat / 256 = 0) ∨
  (w.toNat % 256 = 8 ∧ w.toNat / 2048 = 0 ∧ w.toNat / 256 ≠ 7)

/-- Polls of the drain, one for each value ENV gives `engineActive`, each a step of AUDIO_DRAIN (43_audio_drain R135). -/
def drainPolls : List Bool → State → Outcome
  | [], s => .next s
  | active :: rest, s =>
    match exec .audioDrain { s with draws := { s.draws with engineActive := active } } with
    | .next t => drainPolls rest t
    | .fault r => .fault r
    | .refused r => .refused r

end Sys2Proof.Machine
end

