-- ==== Sys2Proof/Certificates/Slice0/Obligations.lean ====
section
/-! DEFINITION. The statements for the provers, each a `Prop` that formalises a rule of spec/ or a property derived from
rules. `sp.HOST`, BUSY, ERR and the `Done` record of a finished command are in `ended` (Safety.lean). -/

open Sys2Proof Sys2Proof.Machine

/-! ## Encoding -/

/-- Command words as 95_test_vectors section 2.7 writes them out, legal and illegal. -/
def Obligations.PublishedCommandWordsDecode : Prop :=
  decode 0x00000101 = .ok .setHpd1 ∧ decode 0x00000001 = .ok .setHpd0 ∧
  decode 0x00001002 = .ok (.powerOn 16) ∧ decode 0x0000FF02 = .ok (.powerOn 255) ∧
  decode 0x00000003 = .ok .powerOff ∧ decode 0x00000004 = .ok .suspend ∧ decode 0x00000005 = .ok .resume ∧
  decode 0x00000006 = .ok .queryConn ∧ decode 0x00000007 = .ok .queryPower ∧
  decode 0x00000008 = .ok (.setAudioRate .r32k) ∧ decode 0x00000608 = .ok (.setAudioRate .r192k) ∧
  decode 0x00000201 = .error .mustBeZero ∧ decode 0x00010002 = .error .mustBeZero ∧
  decode 0x00000103 = .error .mustBeZero ∧ decode 0x00000808 = .error .mustBeZero ∧
  decode 0x00000708 = .error .rateSeven ∧ decode 0x00000000 = .error .reservedId ∧
  decode 0x00000025 = .error .notHostId ∧ decode 0xFFFFFFFF = .error .reservedId

/-- Decoding an encoded operation gives it back with its operand, and a word that decodes is the encoding of what it
decodes to, so each legal word has one meaning (30_encoding R61 to R63, R67). -/
def Obligations.DecodeAndEncodeAgree : Prop :=
  (∀ (i : Instr) (w : Word), encode i = some w → decode w = .ok i) ∧
  (∀ (w : Word) (i : Instr), decode w = .ok i → encode i = some w)

/-- The decoder accepts exactly the words 30_encoding R68 does not call illegal, and an illegal word written while not BUSY
completes with ERR = 6 and changes nothing else. That CMD holds the word is the model's choice (log 5). -/
def Obligations.IllegalWordsCompleteWithError : Prop :=
  (∀ w : Word, (∃ i, decode w = .ok i) ↔ legalCommandWord w) ∧
  (∀ (s : State) (w : Word) (d : Draws) (rest : List Stimulus),
    s.agenda = ⟨.hostWrite 0x00 w, d⟩ :: rest → s.busy = false → ¬ legalCommandWord w →
    step s = .next (ended (BitVec.ofNat 8 (w.toNat % 256)) 6 []
      { s with agenda := rest, tick := s.tick + 1, draws := d, cmd := w }))

/-! ## Steps and agents -/

/-- A step that takes a write of CMD runs the decoded command, and is ignored while BUSY; the word placed by `withFetchWord`
is what the very next step runs (30_encoding R61, R70, 10_state R11; CMD holding the word is log 5). -/
def Obligations.StepRunsDecodedCommand : Prop :=
  (∀ (s : State) (w : Word) (d : Draws) (rest : List Stimulus), s.agenda = ⟨.hostWrite 0x00 w, d⟩ :: rest →
    (s.busy = true → step s = .next { s with agenda := rest, tick := s.tick + 1, draws := d }) ∧
    (∀ i, s.busy = false → decode w = .ok i →
      step s = exec i { s with agenda := rest, tick := s.tick + 1, draws := d, cmd := w, busy := true })) ∧
  (∀ (s : State) (w : Word) (i : Instr), decode w = .ok i →
    step (s.withFetchWord 32 w.toNat) =
      exec i { s with tick := s.tick + 1, cmd := w, busy := true, spHost := .idle })

/-- Which operation an agent's step runs: HOST its pending step, IRQ its handler, WORKER the task it is in or the head of its
queue (10_state R12, R17, 30_encoding R64). Its two idle clauses, a step of an idle HOST and of an idle WORKER with an empty
queue that changes nothing, are the model's choice (log 11): the spec says that the agent then has no step. -/
def Obligations.AgentsTakeTheirNextStep : Prop :=
  ∀ (s p : State) (d : Draws) (rest : List Stimulus),
    p = { s with agenda := rest, tick := s.tick + 1, draws := d } →
    (s.agenda = ⟨.hostStep, d⟩ :: rest → s.spHost = .idle → step s = .next p) ∧
    (∀ lbl a, s.agenda = ⟨.hostStep, d⟩ :: rest → s.spHost = .powerOn lbl a → step s = exec (.powerOn a.fmt) p) ∧
    (∀ lbl, s.agenda = ⟨.hostStep, d⟩ :: rest → s.spHost = .resume lbl → step s = exec .resume p) ∧
    (s.agenda = ⟨.irq, d⟩ :: rest → step s = exec .connIrq p) ∧
    (∀ lbl, s.agenda = ⟨.worker, d⟩ :: rest → s.spWorker = .powerOffTask lbl → step s = exec .powerOffTask p) ∧
    (∀ q, s.agenda = ⟨.worker, d⟩ :: rest → s.spWorker = .idle → s.wq = .hpd :: q → step s = exec .hpdTask p) ∧
    (∀ q, s.agenda = ⟨.worker, d⟩ :: rest → s.spWorker = .idle → s.wq = .off :: q → step s = exec .powerOffTask p) ∧
    (s.agenda = ⟨.worker, d⟩ :: rest → s.spWorker = .idle → s.wq = [] → step s = .next p)

/-- Every step of every state answers a next state: no operation, illegal word or bad access stops the engine
(60_exceptions R185 to R193). -/
def Obligations.EveryStepGoesOn : Prop :=
  ∀ s : State, ∃ t, step s = .next t

/-- HOST accesses to misaligned or unmapped offsets read 0 and write nothing, and every register access of a step is to an
aligned offset inside the TX map (20_memory R45). -/
def Obligations.BadOffsetsAreRefused : Prop :=
  (∀ (s : State) (offset : Nat), offset % 4 ≠ 0 ∨ 0x18 ≤ offset → hpRead offset s = 0) ∧
  (∀ (s : State) (offset : Nat) (v : Word) (d : Draws) (rest : List Stimulus),
    s.agenda = ⟨.hostWrite offset v, d⟩ :: rest → offset % 4 ≠ 0 ∨ 0x18 ≤ offset →
    step s = .next { s with agenda := rest, tick := s.tick + 1, draws := d }) ∧
  (∀ (s t : State) (l : List Rec) (offset : Nat) (v : Word), step s = .next t → t.trace = s.trace ++ l →
    Rec.regWrite offset v ∈ l ∨ Rec.regRead offset v ∈ l → offset % 4 = 0 ∧ offset ≤ 0x88)

/-- The host port: what each register reads, and that HOST writes ARG0 to ARG2 only, RESULT and RDATA ignoring a write
(20_memory R41). A write of ARG lands while BUSY too: the model's choice (log 10). -/
def Obligations.HostPortReadsAndWrites : Prop :=
  ∀ s : State,
    hpRead 0x00 s = 0 ∧ hpRead 0x04 s = s.arg0 ∧ hpRead 0x08 s = s.arg1 ∧ hpRead 0x0C s = s.arg2 ∧
    (hpRead 0x10 s).toNat = s.err.toNat + (if s.busy then 256 else 0) ∧ hpRead 0x14 s = s.rdata ∧
    (∀ (p : State) (v : Word) (d : Draws) (rest : List Stimulus),
      p = { s with agenda := rest, tick := s.tick + 1, draws := d } →
      (s.agenda = ⟨.hostWrite 0x04 v, d⟩ :: rest → step s = .next { p with arg0 := v }) ∧
      (s.agenda = ⟨.hostWrite 0x08 v, d⟩ :: rest → step s = .next { p with arg1 := v }) ∧
      (s.agenda = ⟨.hostWrite 0x0C v, d⟩ :: rest → step s = .next { p with arg2 := v }) ∧
      (s.agenda = ⟨.hostWrite 0x10 v, d⟩ :: rest → step s = .next p) ∧
      (s.agenda = ⟨.hostWrite 0x14 v, d⟩ :: rest → step s = .next p) ∧
      (∀ offset, s.agenda = ⟨.hostRead offset, d⟩ :: rest → step s = .next p))

/-- An operation its agent has no enabled step for changes nothing: CONN_IRQ without a request line or spurious calls,
HPD_TASK and POWEROFF_TASK not at the head of the queue of an idle worker, AUDIO_DRAIN outside step P2. The enabling
conditions are 30_encoding R64 and 43_audio_drain R135; that the model then takes a step that changes nothing is its
choice (log 11). -/
def Obligations.OperationsNotEnabledChangeNothing : Prop :=
  ∀ s : State,
    (¬ (s.intPending = true ∧ s.tx.hpdIntCtrl.getLsbD 2 = true) → s.cfg.spuriousIrq = false →
      exec .connIrq s = .next s) ∧
    (¬ (s.spWorker = .idle ∧ ∃ q, s.wq = .hpd :: q) → exec .hpdTask s = .next s) ∧
    (s.spWorker = .idle → (¬ ∃ q, s.wq = .off :: q) → exec .powerOffTask s = .next s) ∧
    (s.spWorker ≠ .powerOffTask .p2 → exec .audioDrain s = .next s)

/-- A line of a script stands for the register writes that issue it, then a wait for BUSY = 0; a pseudo-command for the line
it expands to; a directive for its agent's move, and WORKER without a label for the steps of its task to the end
(30_encoding R71; the end itself: WorkerLineRunsItsTaskToCompletion). How a line is run is log 16. -/
def Obligations.ScriptLinesExpandToTheirWrites : Prop :=
  (∀ (fmt : FormatId) (x y f : Word), ∃ w : Word, w.toNat = 2 + fmt.toNat * 256 ∧
    (ScriptLine.powerOn fmt x y f).moves = [.hostWrite 0x04 x, .hostWrite 0x08 y, .hostWrite 0x0C f, .hostWrite 0x00 w]) ∧
  (∀ x y f : Word, (ScriptLine.powerOnGeom x y f).moves = (ScriptLine.powerOn 0 x y f).moves) ∧
  ScriptLine.hpdOn.moves = (ScriptLine.setHpd true).moves ∧ ScriptLine.hpdOff.moves = (ScriptLine.setHpd false).moves ∧
  (ScriptLine.setHpd true).moves = [.hostWrite 0x00 0x101] ∧ (ScriptLine.setHpd false).moves = [.hostWrite 0x00 0x001] ∧
  ScriptLine.powerOff.moves = [.hostWrite 0x00 3] ∧ ScriptLine.suspend.moves = [.hostWrite 0x00 4] ∧
  ScriptLine.resume.moves = [.hostWrite 0x00 5] ∧ ScriptLine.queryConn.moves = [.hostWrite 0x00 6] ∧
  ScriptLine.queryPower.moves = [.hostWrite 0x00 7] ∧ (∀ r : SampleRate, ∃ w : Word, w.toNat = 8 + 256 * r.code.toNat ∧
    (ScriptLine.setAudioRate r).moves = [.hostWrite 0x00 w]) ∧
  (∀ level, (ScriptLine.envSense level).moves = [.setSense level]) ∧ ScriptLine.irq.moves = [.irq] ∧
  (∀ label, (ScriptLine.worker label).moves = [.worker]) ∧
  (∀ (s : State) (l : ScriptLine) (fmt : FormatId) (x y f : Word) (b : Bool) (r : SampleRate),
    l ∈ [.setHpd b, .powerOn fmt x y f, .powerOff, .suspend, .resume, .queryConn, .queryPower, .setAudioRate r, .hpdOn,
      .hpdOff, .powerOnGeom x y f] → l.goesOn s = if s.busy then some .hostStep else none) ∧
  (∀ (s : State) (level : Bool) (label : TaskLabel), (ScriptLine.envSense level).goesOn s = none ∧
    ScriptLine.irq.goesOn s = none ∧ (ScriptLine.worker (some label)).goesOn s = none ∧
    (ScriptLine.worker none).goesOn s = if s.spWorker = .idle then none else some .worker)

/-! ## The hot-plug family -/

/-- SET_HPD 1: a no-op when armed; on a failed domain PowerDomainFailure and nothing else; else the domain, the physical
layer, HPD_ARMED, and the polarity toggle, after which an interrupt is pending whatever the line holds (40_hotplug_fsm R81). -/
def Obligations.SetHpdEnableArms : Prop :=
  ∀ s : State,
    (s.ts.hpdState ≠ .hpdOff → exec .setHpd1 s = .next (ended 0x01 0 [] s)) ∧
    (s.ts.hpdState = .hpdOff → s.draws.enableHotplug = false →
      exec .setHpd1 s = .next (ended 0x01 2 [.callEnable .hotplug false] s)) ∧
    (s.ts.hpdState = .hpdOff → s.draws.enableHotplug = true →
      exec .setHpd1 s = .next (ended 0x01 0
        [.callEnable .hotplug true, .callResetPhysicalLayer, .callInitializePhysicalLayer,
         .regWrite 0x04 0x2, .regWrite 0x04 0x4, .regWrite 0x04 0x6]
        { s with
          enabled := { s.enabled with hotplug := true }
          ts := { s.ts with hpdState := .hpdArmed }
          tx := { s.tx with hpdIntCtrl := 0x6 }
          intPending := true }))

/-- SET_HPD 0: nothing while off, deferred while powered on, else Teardown (40_hotplug_fsm R82, R83). -/
def Obligations.SetHpdDisableDefersOrTearsDown : Prop :=
  ∀ s : State,
    (s.ts.hpdState = .hpdOff → exec .setHpd0 s = .next (ended 0x01 0 [] s)) ∧
    (s.ts.hpdState ≠ .hpdOff → s.ts.panelPoweredOn = true →
      exec .setHpd0 s = .next (ended 0x01 0 [] { s with ts := { s.ts with hotplugOffPending := true } })) ∧
    (s.ts.hpdState ≠ .hpdOff → s.ts.panelPoweredOn = false →
      exec .setHpd0 s = .next (ended 0x01 0 [.regWrite 0x04 0x0, .callDisable .hotplug]
        { s with
          tx := { s.tx with hpdIntCtrl := 0x0 }
          intPending := false
          hpdTaskPending := false
          wq := s.wq.filter (· ≠ .hpd)
          enabled := { s.enabled with hotplug := false }
          ts := { s.ts with hpdState := .hpdOff } }))

/-- TEARDOWN: delivery off, nothing pending or queued for HPD_TASK, the domain off, HPD_OFF; the connection state and the
sink information stay, and nothing is published (40_hotplug_fsm R83). -/
def Obligations.TeardownDisarms : Prop :=
  ∀ s : State, exec .teardown s = .next
    { s with
      tx := { s.tx with hpdIntCtrl := 0x0 }
      intPending := false
      hpdTaskPending := false
      wq := s.wq.filter (· ≠ .hpd)
      enabled := { s.enabled with hotplug := false }
      ts := { s.ts with hpdState := .hpdOff }
      trace := s.trace ++ [.regWrite 0x04 0x0, .callDisable .hotplug] }

/-- ARM_SENSE watches for the opposite of the logical connection state, and a line that already differs raises an interrupt
at once (40_hotplug_fsm R84). -/
def Obligations.ArmSenseWatchesForTheOpposite : Prop :=
  ∀ s : State,
    (s.ts.connectionState = .connected → exec .armSense s = .next
      { s with
        tx := { s.tx with hpdIntCtrl := 0x4 }
        intPending := s.intPending || !s.sense
        trace := s.trace ++ [.regWrite 0x04 0x4] }) ∧
    (s.ts.connectionState = .disconnected → exec .armSense s = .next
      { s with
        tx := { s.tx with hpdIntCtrl := 0x6 }
        intPending := s.intPending || s.sense
        trace := s.trace ++ [.regWrite 0x04 0x6] })

/-- CONN_IRQ: where enabled it reads the status, and on a pending interrupt acknowledges it and queues HPD_TASK unless one is
queued; a spurious call only reads (40_hotplug_fsm R85). Where it is not enabled: OperationsNotEnabledChangeNothing. -/
def Obligations.InterruptReadsAcknowledgesAndQueues : Prop :=
  ∀ s : State,
    (s.intPending = true ∧ s.tx.hpdIntCtrl.getLsbD 2 = true) ∨ s.cfg.spuriousIrq = true →
      (s.intPending = false →
        exec .connIrq s = .next { s with trace := s.trace ++ [.regRead 0x0C (if s.sense then 2 else 0)] }) ∧
      (s.intPending = true → s.hpdTaskPending = true →
        exec .connIrq s = .next
          { s with
            intPending := false
            trace := s.trace ++ [.regRead 0x0C (if s.sense then 3 else 1), .regWrite 0x08 0x1] }) ∧
      (s.intPending = true → s.hpdTaskPending = false →
        exec .connIrq s = .next
          { s with
            intPending := false
            hpdTaskPending := true
            wq := s.wq ++ [.hpd]
            trace := s.trace ++ [.regRead 0x0C (if s.sense then 3 else 1), .regWrite 0x08 0x1] })

/-- HPD_TASK, from any state in which it is at the head of the queue of an idle worker: the guard in HPD_OFF; the polarity
re-programmed on every run; on a new sample of a connected line the sink read, kept on failure with a report; the new state
published once (40_hotplug_fsm R86). -/
def Obligations.HotplugTaskFollowsTheLine : Prop :=
  ∀ (s p : State) (q : List Task) (status : Word), s.spWorker = .idle → s.wq = .hpd :: q →
    p = { s with wq := q, hpdTaskPending := false } →
    status.toNat = (if s.intPending then 1 else 0) + (if s.sense then 2 else 0) →
    (s.ts.hpdState = .hpdOff → exec .hpdTask s = .next p) ∧
    (s.ts.hpdState = .connected → s.sense = true → exec .hpdTask s = .next
      { p with
        tx := { s.tx with hpdIntCtrl := 0x4 }
        trace := s.trace ++ [.regRead 0x0C status, .regWrite 0x04 0x4] }) ∧
    (s.ts.hpdState = .disconnected → s.sense = false → exec .hpdTask s = .next
      { p with
        tx := { s.tx with hpdIntCtrl := 0x6 }
        trace := s.trace ++ [.regRead 0x0C status, .regWrite 0x04 0x6] }) ∧
    (∀ info, s.ts.hpdState = .hpdArmed ∨ s.ts.hpdState = .disconnected → s.sense = true →
      s.draws.sinkRead = some info → exec .hpdTask s = .next
      { p with
        tx := { s.tx with hpdIntCtrl := 0x4 }
        sinkInfo := info
        ts := { s.ts with hpdState := .connected, connectionState := .connected }
        hpdEventSeen := true
        trace := s.trace ++ [.regRead 0x0C status, .regWrite 0x04 0x4, .callReadSinkDescriptor (some info),
          .connChanged .connected] }) ∧
    (s.ts.hpdState = .hpdArmed ∨ s.ts.hpdState = .disconnected → s.sense = true →
      s.draws.sinkRead = none → exec .hpdTask s = .next
      { p with
        tx := { s.tx with hpdIntCtrl := 0x4 }
        ts := { s.ts with hpdState := .connected, connectionState := .connected }
        hpdEventSeen := true
        trace := s.trace ++ [.regRead 0x0C status, .regWrite 0x04 0x4, .callReadSinkDescriptor none,
          .report .busTransactionFailure, .connChanged .connected] }) ∧
    (s.ts.hpdState = .hpdArmed ∨ s.ts.hpdState = .connected → s.sense = false → exec .hpdTask s = .next
      { p with
        tx := { s.tx with hpdIntCtrl := 0x6 }
        ts := { s.ts with hpdState := .disconnected, connectionState := .disconnected }
        hpdEventSeen := true
        trace := s.trace ++ [.regRead 0x0C status, .regWrite 0x04 0x6, .connChanged .disconnected] })

/-- Two runs of HPD_TASK that sample the same level with hot-plug still armed as the first left it: the second publishes
nothing (40_hotplug_fsm R92). -/
def Obligations.SameSampleIsPublishedOnce : Prop :=
  ∀ (s t s' t' : State) (q q' : List Task) (l : List Rec) (c : Connection),
    s.spWorker = .idle → s.wq = .hpd :: q → s.ts.hpdState ≠ .hpdOff → exec .hpdTask s = .next t →
    s'.spWorker = .idle → s'.wq = .hpd :: q' → s'.ts.hpdState = t.ts.hpdState → s'.sense = s.sense →
    exec .hpdTask s' = .next t' → t'.trace = s'.trace ++ l → Rec.connChanged c ∉ l

/-- SUSPEND sets the suspended flag and changes nothing else (40_hotplug_fsm R88). -/
def Obligations.SuspendOnlySetsItsFlag : Prop :=
  ∀ s : State, exec .suspend s = .next (ended 0x04 0 [] { s with ts := { s.ts with panelSuspended := true } })

/-- RESUME: at once when not suspended or hot-plug is off; else step W clears the event flag and waits; step B runs when an
event was seen or ENV draws timeout, and publishes Disconnected exactly when timed out, armed and not connected
(40_hotplug_fsm R89). That a step asked for during the wait changes nothing is the model's choice (log 11). -/
def Obligations.ResumeWaitsThenDecides : Prop :=
  ∀ s : State,
    (s.spHost ≠ .resume .b → s.ts.panelSuspended = false ∨ s.ts.hpdState = .hpdOff →
      exec .resume s = .next (ended 0x05 0 [] { s with ts := { s.ts with panelSuspended := false } })) ∧
    (s.spHost ≠ .resume .b → s.ts.panelSuspended = true → s.ts.hpdState ≠ .hpdOff →
      exec .resume s = .next { s with hpdEventSeen := false, spHost := .resume .b }) ∧
    (s.spHost = .resume .b → s.hpdEventSeen = false → s.draws.resumeTimeout = false → exec .resume s = .next s) ∧
    (s.spHost = .resume .b → s.hpdEventSeen = true →
      exec .resume s = .next (ended 0x05 0 [] { s with ts := { s.ts with panelSuspended := false } })) ∧
    (s.spHost = .resume .b → s.hpdEventSeen = false → s.draws.resumeTimeout = true →
      exec .resume s = .next (ended 0x05 0
        (if s.ts.hpdState ≠ .hpdOff ∧ s.ts.connectionState = .disconnected then [.connChanged .disconnected] else [])
        { s with ts := { s.ts with panelSuspended := false } }))

/-- The queries: RDATA takes the stored connection state, or `panelPoweredOn`, and nothing else changes
(40_hotplug_fsm R90, R91). -/
def Obligations.QueriesReturnTheStoredFields : Prop :=
  ∀ s : State,
    exec .queryConn s = .next (ended 0x06 0 []
      { s with rdata := if s.ts.connectionState = .connected then 1 else 0 }) ∧
    exec .queryPower s = .next (ended 0x07 0 [] { s with rdata := if s.ts.panelPoweredOn then 1 else 0 })

/-- The interrupt latch: evaluated after every write of HPD_INT_CTRL with the value just written and after every change of
the line, not on an acknowledge, which only clears (60_exceptions R188). The line driven to the level it has:
LineDrivenToItsLevelEvaluatesTheLatch. -/
def Obligations.LatchSetsThePendingInterrupt : Prop :=
  (∀ (s : State) (v : Word), (txWrite .hpdIntCtrl v s).intPending =
    (s.intPending || (v.getLsbD 2 && (s.sense == v.getLsbD 1)))) ∧
  (∀ (s : State) (v : Word), (txWrite .hpdIntAck v s).intPending = (s.intPending && !v.getLsbD 0)) ∧
  (∀ (s : State) (level : Bool) (d : Draws) (rest : List Stimulus), s.agenda = ⟨.setSense level, d⟩ :: rest →
    level ≠ s.sense → step s = .next
      { s with
        agenda := rest
        tick := s.tick + 1
        draws := d
        sense := level
        intPending := s.intPending || (s.tx.hpdIntCtrl.getLsbD 2 && (level == s.tx.hpdIntCtrl.getLsbD 1)) })

/-! ## The power sequencer -/

/-- POWER_ON, its steps W and B whole: both checks of W and the operands read there; no step while a power-off is pending; the
second armed check; a failed core or CEC domain with the rollback, `ts` untouched; and the link brought up, with every
record in order, the registers as the records say, the committed fields, the sense re-armed (41_power_sequencer R100). That
a step asked for during the wait changes nothing is the model's choice (log 11). -/
def Obligations.PowerOnFollowsItsSteps : Prop :=
  ∀ (s : State) (fmt : FormatId),
    ((∀ a, s.spHost ≠ .powerOn .b a) → s.ts.hpdState = .hpdOff →
      exec (.powerOn fmt) s = .next (ended 0x02 1 [] s)) ∧
    ((∀ a, s.spHost ≠ .powerOn .b a) → s.ts.panelPoweredOn = true → s.offPending = false →
      exec (.powerOn fmt) s = .next (ended 0x02 1 [] s)) ∧
    ((∀ lbl a, s.spHost ≠ .powerOn lbl a) → s.ts.hpdState ≠ .hpdOff →
      s.ts.panelPoweredOn = false ∨ s.offPending = true →
      exec (.powerOn fmt) s = .next { s with spHost := .powerOn .b ⟨fmt, s.arg0, s.arg1, s.arg2⟩ }) ∧
    (∀ a, s.spHost = .powerOn .w a → s.ts.hpdState ≠ .hpdOff → s.ts.panelPoweredOn = false ∨ s.offPending = true →
      exec (.powerOn fmt) s = .next { s with spHost := .powerOn .b a }) ∧
    (∀ a, s.spHost = .powerOn .b a →
      (s.offPending = true → exec (.powerOn fmt) s = .next s) ∧
      (s.offPending = false → s.ts.hpdState = .hpdOff → exec (.powerOn fmt) s = .next (ended 0x02 1 [] s)) ∧
      (s.offPending = false → s.ts.hpdState ≠ .hpdOff → s.draws.enableCore = false →
        exec (.powerOn fmt) s = .next (ended 0x02 2 [.callEnable .core false] s)) ∧
      (s.offPending = false → s.ts.hpdState ≠ .hpdOff → s.draws.enableCore = true → s.draws.enableCec = false →
        exec (.powerOn fmt) s = .next (ended 0x02 2
          [.callEnable .core true, .callEnable .cec false, .callDisable .core]
          { s with enabled := { s.enabled with core := false } })) ∧
      (∀ id t recs, s.offPending = false → s.ts.hpdState ≠ .hpdOff → s.draws.enableCore = true →
        s.draws.enableCec = true → (id, t) = resolveTiming s.cfg a.fmt a.xres a.yres a.frameRate →
        recs = powerOnRecords s.cfg id t s.ts.audioSampleRate s.sinkInfo s.ts.connectionState →
        exec (.powerOn fmt) s = .next (ended 0x02 0 recs
          { s with
            enabled := { s.enabled with core := true, cec := true }
            ts := { s.ts with
              activeFormat := id
              xres := a.xres
              yres := a.yres
              frameRate := a.frameRate
              pixelClockHz := BitVec.ofNat 32 (t.pixelFreqKHz.toNat * 1000)
              panelPoweredOn := true }
            tx := replayWrites s.tx recs
            intPending := s.intPending || (if s.ts.connectionState = .connected then !s.sense else s.sense) })))

/-- POWER_OFF queues one task when powered on with none pending, and nothing otherwise; it returns at once with success
(41_power_sequencer R101). -/
def Obligations.PowerOffQueuesOneTask : Prop :=
  ∀ s : State,
    (s.ts.panelPoweredOn = true → s.offPending = false →
      exec .powerOff s = .next (ended 0x03 0 [] { s with offPending := true, wq := s.wq ++ [.off] })) ∧
    (s.ts.panelPoweredOn = false ∨ s.offPending = true → exec .powerOff s = .next (ended 0x03 0 [] s))

/-- POWEROFF_TASK: P1 from the head of the queue of an idle worker; P2 is the drain's poll; P3 shuts the link down, then
carries out a deferred hot-plug disable or re-arms the sense polarity (41_power_sequencer R102). -/
def Obligations.PowerOffTaskRunsItsSteps : Prop :=
  ∀ s : State,
    (∀ q, s.spWorker = .idle → s.wq = .off :: q → exec .powerOffTask s = .next
      { s with
        wq := q
        drainRound := 1
        drainAttempt := 1
        spWorker := .powerOffTask .p2
        trace := s.trace ++ [.audioChanged false] }) ∧
    (s.spWorker = .powerOffTask .p2 → exec .powerOffTask s = exec .audioDrain s) ∧
    (s.spWorker = .powerOffTask .p3 → s.ts.hotplugOffPending = true → exec .powerOffTask s = .next
      { s with
        tx := { s.tx with ctrl := 0x0, hpdIntCtrl := 0x0 }
        ts := { s.ts with
          pixelClockHz := 0
          panelPoweredOn := false
          hotplugOffPending := false
          hpdState := .hpdOff }
        enabled := ⟨false, false, false⟩
        intPending := false
        hpdTaskPending := false
        wq := s.wq.filter (· ≠ .hpd)
        offPending := false
        spWorker := .idle
        trace := s.trace ++ [.regWrite 0x00 0x0, .callPowerDownPhysicalLayer, .callDisable .core, .callDisable .cec,
          .regWrite 0x04 0x0, .callDisable .hotplug] }) ∧
    (s.spWorker = .powerOffTask .p3 → s.ts.hotplugOffPending = false → exec .powerOffTask s = .next
      { s with
        tx := { s.tx with
          ctrl := 0x0
          hpdIntCtrl := if s.ts.connectionState = .connected then 0x4 else 0x6 }
        ts := { s.ts with pixelClockHz := 0, panelPoweredOn := false }
        enabled := { s.enabled with core := false, cec := false }
        intPending := s.intPending || (if s.ts.connectionState = .connected then !s.sense else s.sense)
        offPending := false
        spWorker := .idle
        trace := s.trace ++ [.regWrite 0x00 0x0, .callPowerDownPhysicalLayer, .callDisable .core, .callDisable .cec,
          .regWrite 0x04 (if s.ts.connectionState = .connected then 0x4 else 0x6)] })

/-- SET_AUDIO_RATE writes the stored rate, and no register (41_power_sequencer R103). -/
def Obligations.SetAudioRateStoresTheRate : Prop :=
  ∀ (s : State) (r : SampleRate),
    exec (.setAudioRate r) s = .next (ended 0x08 0 [] { s with ts := { s.ts with audioSampleRate := r } })

/-- One poll of the drain: the read; drained on an inactive engine; else the next attempt, the next round with the audio-off
notification, or the report of a timeout after the last round (43_audio_drain R135); the counts are the configuration's,
500 and 15 where its parameters have their values. -/
def Obligations.DrainPollCountsAttemptsAndRounds : Prop :=
  ∀ s : State, s.spWorker = .powerOffTask .p2 →
    (s.draws.engineActive = false → exec .audioDrain s = .next
      { s with spWorker := .powerOffTask .p3, trace := s.trace ++ [.regRead 0x10 0x0] }) ∧
    (s.draws.engineActive = true → s.drainAttempt < s.cfg.drainAttempts → exec .audioDrain s = .next
      { s with drainAttempt := s.drainAttempt + 1, trace := s.trace ++ [.regRead 0x10 0x1] }) ∧
    (s.draws.engineActive = true → s.cfg.drainAttempts ≤ s.drainAttempt → s.drainRound < s.cfg.drainRounds →
      exec .audioDrain s = .next
        { s with
          drainRound := s.drainRound + 1
          drainAttempt := 1
          trace := s.trace ++ [.regRead 0x10 0x1, .audioChanged false] }) ∧
    (s.draws.engineActive = true → s.cfg.drainAttempts ≤ s.drainAttempt → s.cfg.drainRounds ≤ s.drainRound →
      exec .audioDrain s = .next
        { s with
          spWorker := .powerOffTask .p3
          trace := s.trace ++ [.regRead 0x10 0x1, .report .drainTimeout] }) ∧
    (s.cfg.fixedOk = true → s.cfg.drainAttempts = 500 ∧ s.cfg.drainRounds = 15)

/-- The drain is bounded: found inactive after k < 7500 active polls it ends there with no report and `k div 500` further
notifications; never found inactive it ends after exactly 7500 polls with 14 further notifications and one report
(43_audio_drain R137 (a) to (c)), with DRAIN_ATTEMPTS and DRAIN_ROUNDS as 00_scope R5 fixes them. -/
def Obligations.DrainEndsWithinItsBound : Prop :=
  ∀ s : State, s.cfg.fixedOk = true → s.spWorker = .powerOffTask .p2 → s.drainRound = 1 → s.drainAttempt = 1 →
    (∀ k, k < 7500 → ∃ t l, drainPolls (List.replicate k true ++ [false]) s = .next t ∧
      t.trace = s.trace ++ l ∧ t.spWorker = .powerOffTask .p3 ∧
      t.drainRound = k / 500 + 1 ∧ t.drainAttempt = k % 500 + 1 ∧
      l.count (.regRead 0x10 0x1) = k ∧ l.count (.regRead 0x10 0x0) = 1 ∧
      l.count (.audioChanged false) = k / 500 ∧ l.count (.report .drainTimeout) = 0 ∧ l.length = k + 1 + k / 500) ∧
    (∃ t l, drainPolls (List.replicate 7500 true) s = .next t ∧
      t.trace = s.trace ++ l ∧ t.spWorker = .powerOffTask .p3 ∧ t.drainRound = 15 ∧ t.drainAttempt = 500 ∧
      l.count (.regRead 0x10 0x1) = 7500 ∧ l.count (.audioChanged false) = 14 ∧
      l.count (.report .drainTimeout) = 1 ∧ l.length = 7515)

/-- Serialization: from a state in which a power-off is pending, in every run of every length, no core-domain enable is
recorded before the power-off's two disables (41_power_sequencer R104). -/
def Obligations.PowerOnWaitsForThePendingPowerOff : Prop :=
  ∀ (k : Nat) (s t : State) (l l1 l2 : List Rec) (ok : Bool), s.offPending = true →
    Host.Core.run Sys2Proof.core k s = .next t → t.trace = s.trace ++ l → l = l1 ++ .callEnable .core ok :: l2 →
    Rec.callDisable .core ∈ l1 ∧ Rec.callDisable .cec ∈ l1

/-- A deferred hot-plug disable is kept by every step until step P3 of POWEROFF_TASK, which carries it out once, after the
two other domains, and clears it (41_power_sequencer R106). -/
def Obligations.DeferredDisableRunsExactlyOnce : Prop :=
  ∀ (s t : State) (l : List Rec), Inv s → s.ts.hotplugOffPending = true → step s = .next t → t.trace = s.trace ++ l →
    (t.ts.hotplugOffPending = true ∧ t.ts.hpdState ≠ .hpdOff ∧ Rec.callDisable .hotplug ∉ l ∧
      Rec.regWrite 0x04 0x0 ∉ l) ∨
    ((nextStimulus s).action = .worker ∧ s.spWorker = .powerOffTask .p3 ∧ t.ts.hotplugOffPending = false ∧
      t.ts.hpdState = .hpdOff ∧
      l = [.regWrite 0x00 0x0, .callPowerDownPhysicalLayer, .callDisable .core, .callDisable .cec,
        .regWrite 0x04 0x0, .callDisable .hotplug])

/-- A command that ends in an error leaves `TransmitterState` and the domain flags as they were before its step, shows the
error in RESULT and leaves HOST idle (41_power_sequencer R105, 60_exceptions R192). -/
def Obligations.FailedCommandsLeaveTransmitterState : Prop :=
  ∀ (s t : State) (l : List Rec) (op e : Byte), Inv s → step s = .next t → t.trace = s.trace ++ l →
    Rec.done op e ∈ l → e ≠ 0 →
    t.ts = s.ts ∧ t.enabled = s.enabled ∧ t.err = e ∧ t.busy = false ∧ t.spHost = .idle

/-- Audio is silenced and the drain is over before the physical layer is powered down: only step P3 powers it down, P3 is
entered only from P2 by a poll that finds the engine inactive or by the last poll, and P2 only with the audio-off
notification (70_reset_and_hazards R208). -/
def Obligations.PhysicalLayerGoesDownAfterTheDrain : Prop :=
  ∀ (s t : State) (l : List Rec), step s = .next t → t.trace = s.trace ++ l →
    (Rec.callPowerDownPhysicalLayer ∈ l → s.spWorker = .powerOffTask .p3) ∧
    (t.spWorker = .powerOffTask .p3 → s.spWorker = .powerOffTask .p3 ∨
      (s.spWorker = .powerOffTask .p2 ∧
        (Rec.regRead 0x10 0x0 ∈ l ∨
          (Rec.report .drainTimeout ∈ l ∧ s.cfg.drainAttempts ≤ s.drainAttempt ∧
            s.cfg.drainRounds ≤ s.drainRound)))) ∧
    (t.spWorker = .powerOffTask .p2 → s.spWorker = .powerOffTask .p2 ∨ Rec.audioChanged false ∈ l)

/-! ## Timing -/

/-- RESOLVE_TIMING: a supported non-zero id, else the first geometry match, else the default; with tables as
70_reset_and_hazards R207 requires, the timing is the table's row of that id (42_timing R121). That the result stands in the
field `ret` is the model's choice (log 7). -/
def Obligations.ResolveTimingPicksIdGeometryOrDefault : Prop :=
  ∀ (s : State) (fmt : FormatId) (x y f : Word) (id : FormatId),
    (fmt ≠ 0 ∧ (∃ t, (fmt, t) ∈ s.cfg.timingTable) ∧ id = fmt) ∨
    ((fmt = 0 ∨ ∀ t, (fmt, t) ∉ s.cfg.timingTable) ∧
      ∃ before after, s.cfg.geometryTable = before ++ ⟨x, y, f, id⟩ :: after ∧
        ∀ g ∈ before, ¬ (g.xres = x ∧ g.yres = y ∧ g.frameRate = f)) ∨
    ((fmt = 0 ∨ ∀ t, (fmt, t) ∉ s.cfg.timingTable) ∧
      (∀ g ∈ s.cfg.geometryTable, ¬ (g.xres = x ∧ g.yres = y ∧ g.frameRate = f)) ∧ id = s.cfg.defaultFormat) →
    ∃ t, exec (.resolveTiming fmt x y f) s = .next { s with ret := .timing id t } ∧
      (s.cfg.wf = true → (id, t) ∈ s.cfg.timingTable ∧ t.legal = true)

/-- TIMING_PROG of a legal row writes six registers in order with the totals, starts and ends of 42_timing R122, each
modulo 4096, the field-2 registers 0 when progressive, and the three bits of FRAME_CTRL (42_timing R123, R124). Of any row
it writes those six registers, and nothing else changes. -/
def Obligations.TimingProgWritesTheTimingRegisters : Prop :=
  (∀ (s : State) (t : VideoTiming) (th tv sh eh sv ev : Nat), t.legal = true →
    th + 1 = t.activeH.toNat + t.frontPorchH.toNat + t.backPorchH.toNat + t.pulseWidthH.toNat →
    tv + 1 = t.activeV.toNat + t.frontPorchV.toNat + t.backPorchV.toNat + t.pulseWidthV.toNat →
    sh = t.backPorchH.toNat + t.pulseWidthH.toNat → eh = sh + t.activeH.toNat →
    sv + 1 = t.backPorchV.toNat + t.pulseWidthV.toNat → ev = sv + t.activeV.toNat →
    ∃ w1 w2 w3 w4 w5 w6 : Word,
      exec (.timingProg t) s = .next
        { s with
          tx := { s.tx with total := w1, activeH := w2, activeV := w3, vTotalF2 := w4, activeVF2 := w5, frameCtrl := w6 }
          trace := s.trace ++ [.regWrite 0x14 w1, .regWrite 0x18 w2, .regWrite 0x1C w3, .regWrite 0x20 w4,
            .regWrite 0x24 w5, .regWrite 0x28 w6] } ∧
      w1.toNat = (tv % 4096) * 65536 + th % 4096 ∧
      w2.toNat = (eh % 4096) * 65536 + sh % 4096 ∧
      w3.toNat = (ev % 4096) * 65536 + sv % 4096 ∧
      w4.toNat = (if t.interlaced then (tv + 1) % 4096 else 0) ∧
      w5.toNat = (if t.interlaced then ((ev + 1) % 4096) * 65536 + (sv + 1) % 4096 else 0) ∧
      w6.toNat = (if t.interlaced then 2 ^ 31 else 0) + (if t.activeLowV then 2 ^ 29 else 0)
        + (if t.activeLowH then 2 ^ 28 else 0)) ∧
  (∀ (s : State) (t : VideoTiming), ∃ w1 w2 w3 w4 w5 w6 : Word,
    exec (.timingProg t) s = .next
      { s with
        tx := { s.tx with total := w1, activeH := w2, activeV := w3, vTotalF2 := w4, activeVF2 := w5, frameCtrl := w6 }
        trace := s.trace ++ [.regWrite 0x14 w1, .regWrite 0x18 w2, .regWrite 0x1C w3, .regWrite 0x20 w4,
          .regWrite 0x24 w5, .regWrite 0x28 w6] })

/-! ## Packets and audio -/

/-- CHECKSUM: the formula, and that the bytes with their checksum sum to 0 modulo 256 (44_infoframes R150). That the result
stands in the field `ret` is the model's choice (log 7). -/
def Obligations.ChecksumMakesTheSumZero : Prop :=
  ∀ (s : State) (bytes : List Byte) (sum : Nat), sum = (bytes.map BitVec.toNat).sum →
    ∃ c : Byte, exec (.checksum bytes) s = .next { s with ret := .byte c } ∧
      c.toNat = (256 - sum % 256) % 256 ∧ (sum + c.toNat) % 256 = 0

/-- AVI_EMIT: one report where the id has no row; where it has one row, four payload words with the bytes in their lanes, the
scan-info bits OR-ed into data1, a checksum that makes all 17 bytes sum to 0 modulo 256, and SEND last (44_infoframes R151,
R152); type, version and length are the configuration's, 0x82, 0x02 and 0x0D where its parameters have their values. -/
def Obligations.AviEmitPacksTheRow : Prop :=
  ∀ (s : State) (id : FormatId) (scan : BitVec 2),
    ((∀ row, (id, row) ∉ s.cfg.aviTable) →
      exec (.aviEmit id scan) s = .next { s with trace := s.trace ++ [.report .unsupportedFormat] }) ∧
    (∀ row before after, s.cfg.aviTable = before ++ (id, row) :: after → (∀ r ∈ before ++ after, r.1 ≠ id) →
      ∃ (c d1 : Byte) (w0 w1 w2 w3 : Word),
        exec (.aviEmit id scan) s = .next
          { s with
            tx := { s.tx with aviInfo0 := w0, aviInfo1 := w1, aviInfo2 := w2, aviInfo3 := w3, aviCtrl := 0x1 }
            trace := s.trace ++ [.regWrite 0x30 w0, .regWrite 0x34 w1, .regWrite 0x38 w2, .regWrite 0x3C w3,
              .regWrite 0x2C 0x1] } ∧
        d1 = row.data1 ||| scan.setWidth 8 ∧
        w0.toNat = c.toNat + d1.toNat * 2 ^ 8 + row.data2.toNat * 2 ^ 16 + row.data3.toNat * 2 ^ 24 ∧
        w1.toNat = row.data4.toNat + row.data5.toNat * 2 ^ 8 + row.data6.toNat * 2 ^ 16 + row.data7.toNat * 2 ^ 24 ∧
        w2.toNat = row.data8.toNat + row.data9.toNat * 2 ^ 8 + row.data10.toNat * 2 ^ 16 + row.data11.toNat * 2 ^ 24 ∧
        w3.toNat = row.data12.toNat + row.data13.toNat * 2 ^ 8 + s.cfg.aviVersion.toNat * 2 ^ 24 ∧
        (s.cfg.aviType.toNat + s.cfg.aviVersion.toNat + s.cfg.aviLength.toNat + d1.toNat + row.data2.toNat
          + row.data3.toNat + row.data4.toNat + row.data5.toNat + row.data6.toNat + row.data7.toNat
          + row.data8.toNat + row.data9.toNat + row.data10.toNat + row.data11.toNat + row.data12.toNat + row.data13.toNat + c.toNat) % 256 = 0) ∧
    (s.cfg.fixedOk = true → s.cfg.aviType = 0x82 ∧ s.cfg.aviVersion = 0x02 ∧ s.cfg.aviLength = 0x0D)

/-- SPD_EMIT: the header, six payload words, then the word with the checksum, then SEND; each string byte masked to 7 bits;
the header bytes, the 25 payload bytes and the checksum sum to 0 modulo 256 (44_infoframes R153, R154); the 25th is the
configuration's SPD_SOURCE_INFO, 0x00 where its parameters have their values. -/
def Obligations.SpdEmitPacksTheStrings : Prop :=
  ∀ (s : State) (v p : List Nat),
    v = s.cfg.vendorName.toList.map (fun b => b.toNat % 128) →
    p = s.cfg.productDesc.toList.map (fun b => b.toNat % 128) →
    ∃ (c : Byte) (w0 w1 w2 w3 w4 w5 w6 : Word),
      exec .spdEmit s = .next
        { s with
          tx := { s.tx with
            spdHdr := 0x00190183, spd0 := w0, spd1 := w1, spd2 := w2, spd3 := w3, spd4 := w4, spd5 := w5, spd6 := w6,
            spdCtrl := 0x1 }
          trace := s.trace ++ [.regWrite 0x44 0x00190183, .regWrite 0x4C w1, .regWrite 0x50 w2, .regWrite 0x54 w3,
            .regWrite 0x58 w4, .regWrite 0x5C w5, .regWrite 0x60 w6, .regWrite 0x48 w0, .regWrite 0x40 0x1] } ∧
      [w0, w1, w2, w3, w4, w5, w6].flatMap
          (fun w => [w.toNat % 256, w.toNat / 2 ^ 8 % 256, w.toNat / 2 ^ 16 % 256, w.toNat / 2 ^ 24])
        = c.toNat :: (v ++ p) ++ [s.cfg.spdSourceInfo.toNat, 0, 0] ∧
      (0x83 + 0x01 + 0x19 + v.sum + p.sum + s.cfg.spdSourceInfo.toNat + c.toNat) % 256 = 0 ∧
      (s.cfg.fixedOk = true → s.cfg.spdSourceInfo = 0x00)

/-- AINFO_EMIT: the count and allocation codes that the configuration's AUDIO_CHANNEL_TABLE gives the channel count, level
shift and down-mix masked, a checksum that makes the summed terms 0 modulo 256, SEND last (44_infoframes R155, R156); the
codes are those of R155 where the parameters have their values. -/
def Obligations.AudioInfoEmitPacksTheCodes : Prop :=
  ∀ (s : State) (ch : ChannelCount) (ls dm cc ca b5 : Nat),
    cc = (s.cfg.audioChannelTable.codes ch).count.toNat → ca = (s.cfg.audioChannelTable.codes ch).allocation.toNat →
    b5 = (ls % 16) * 8 + (dm % 2) * 128 →
    ∃ (c : Byte) (w0 w1 : Word),
      exec (.ainfoEmit ch ls dm) s = .next
        { s with
          tx := { s.tx with audioInfo0 := w0, audioInfo1 := w1, audioInfoCtrl := 0x1 }
          trace := s.trace ++ [.regWrite 0x68 w0, .regWrite 0x6C w1, .regWrite 0x64 0x1] } ∧
      w0.toNat = c.toNat + cc * 2 ^ 8 ∧ w1.toNat = ca + b5 * 2 ^ 8 ∧
      (0x84 + 0x01 + 0x0A + cc + ca + b5 + c.toNat) % 256 = 0 ∧
      (s.cfg.fixedOk = true →
        (ch = .two ∧ cc = 0x01 ∧ ca = 0x00) ∨ (ch = .four ∧ cc = 0x03 ∧ ca = 0x03) ∨
        (ch = .six ∧ cc = 0x05 ∧ ca = 0x0B) ∨ (ch = .eight ∧ cc = 0x07 ∧ ca = 0x1F))

/-- The multiplier, the slot number and the entry of a row for each of the seven rates (45_acr R170). -/
def rateTable (row : AcrRow) : List (SampleRate × Nat × Nat × AcrEntry) :=
  [(.r32k, 1, 1, row.e32k), (.r44k1, 1, 2, row.e44k1), (.r48k, 1, 3, row.e48k), (.r88k2, 2, 2, row.e88k2),
   (.r96k, 2, 3, row.e96k), (.r176k4, 4, 2, row.e176k4), (.r192k, 4, 3, row.e192k)]

/-- ACR_CALC: Unsupported where no row has exactly this clock; of the one row with it the entry of the rate, `N` divided
by the rate's multiplier, `CTS << 12` modulo 2^32, the multiplier and the slot; no state but the result changes
(45_acr R170, R171). That the result stands in the field `ret` is the model's choice (log 7). -/
def Obligations.AcrCalcLooksUpAndScales : Prop :=
  ∀ (s : State) (clk : Word) (rate : SampleRate),
    ((∀ row ∈ s.cfg.acrTable, row.clockHz ≠ clk) → exec (.acrCalc clk rate) s = .next { s with ret := .acr none }) ∧
    (∀ row before after mult slot entry, s.cfg.acrTable = before ++ row :: after → row.clockHz = clk →
      (∀ r ∈ before ++ after, r.clockHz ≠ clk) → (rate, mult, slot, entry) ∈ rateTable row →
      ∃ r : AcrResult, exec (.acrCalc clk rate) s = .next { s with ret := .acr (some r) } ∧
        r.n.toNat = entry.n.toNat / mult ∧ r.ctsField.toNat = (entry.cts.toNat * 4096) % 2 ^ 32 ∧
        r.mult.value = mult ∧ r.slot.field.toNat = slot)

/-- ACR_SETUP: no write where Unsupported; else the two registers of the selected slot, then the control word
`1 | slot << 4 | MULT << 16`; the other slots keep what they held (45_acr R172). That `Ok` or `Unsupported` stands in the
field `ret` is the model's choice (log 7). -/
def Obligations.AcrSetupWritesOneSlot : Prop :=
  ∀ (s : State) (clk : Word) (rate : SampleRate),
    (acrCalc s.cfg clk rate = none → exec (.acrSetup clk rate) s = .next { s with ret := .supported false }) ∧
    (∀ r ctl, acrCalc s.cfg clk rate = some r →
      ctl = BitVec.ofNat 32 (1 + r.slot.field.toNat * 2 ^ 4 + r.mult.field.toNat * 2 ^ 16) →
      (r.slot = .s32 → exec (.acrSetup clk rate) s = .next
        { s with
          tx := { s.tx with acr32v0 := r.ctsField, acr32v1 := r.n, acrPktCtrl := ctl }
          trace := s.trace ++ [.regWrite 0x74 r.ctsField, .regWrite 0x78 r.n, .regWrite 0x70 ctl]
          ret := .supported true }) ∧
      (r.slot = .s44 → exec (.acrSetup clk rate) s = .next
        { s with
          tx := { s.tx with acr44v0 := r.ctsField, acr44v1 := r.n, acrPktCtrl := ctl }
          trace := s.trace ++ [.regWrite 0x7C r.ctsField, .regWrite 0x80 r.n, .regWrite 0x70 ctl]
          ret := .supported true }) ∧
      (r.slot = .s48 → exec (.acrSetup clk rate) s = .next
        { s with
          tx := { s.tx with acr48v0 := r.ctsField, acr48v1 := r.n, acrPktCtrl := ctl }
          trace := s.trace ++ [.regWrite 0x84 r.ctsField, .regWrite 0x88 r.n, .regWrite 0x70 ctl]
          ret := .supported true }))

/-- With every table `N` a multiple of its rate's multiplier, the emitted `N` times the multiplier is the table's `N`
(45_acr R173). -/
def Obligations.EmittedNTimesMultiplierIsTableN : Prop :=
  ∀ (c : Config) (row : AcrRow) (rate : SampleRate) (r : AcrResult), c.acrMultiplesOk = true → row ∈ c.acrTable →
    c.keysUnique = true → acrCalc c row.clockHz rate = some r →
    r.n.toNat * r.mult.value = (row.entry rate).n.toNat

/-- AUDIO_ENABLE: a report and nothing else on an unsupported clock; else the clock-recovery writes, the audio-info writes and
the audio-active signal, and no other change (43_audio_drain R136). -/
def Obligations.AudioEnableProgramsOrReports : Prop :=
  ∀ (s : State) (recs : List Rec), recs = audioRecords s.cfg s.ts.pixelClockHz s.ts.audioSampleRate →
    (acrCalc s.cfg s.ts.pixelClockHz s.ts.audioSampleRate = none → recs = [.report .unsupportedFormat]) ∧
    (acrCalc s.cfg s.ts.pixelClockHz s.ts.audioSampleRate ≠ none → recs.length = 7 ∧ Rec.audioChanged true ∈ recs) ∧
    exec .audioEnable s = .next { s with tx := replayWrites s.tx recs, trace := s.trace ++ recs }

/-! ## Reset, invariants and rules of the whole machine -/

/-- The state after reset, for every configuration: the values of the table of 10_state R33, RESULT read as HOST reads it;
AUDIO_RATE_RESET and SINK_INFO_RESET are 48 kHz and basic mode where the parameters have their values. `State.reset` is
this state for the reference configuration (log 2). -/
def Obligations.ResetLeavesTheTabledValues : Prop :=
  ∀ c : Config,
    (State.resetWith c).ts = ⟨.hpdOff, false, false, false, .disconnected, c.defaultFormat, c.audioRateReset, 0, 0, 0, 0⟩ ∧
    (State.resetWith c).enabled = ⟨false, false, false⟩ ∧ (State.resetWith c).sinkInfo = c.sinkInfoReset ∧
    (State.resetWith c).offPending = false ∧ (State.resetWith c).intPending = false ∧
    (State.resetWith c).hpdTaskPending = false ∧ (State.resetWith c).hpdEventSeen = false ∧
    (State.resetWith c).busy = false ∧ (State.resetWith c).wq = [] ∧
    (State.resetWith c).spHost = .idle ∧ (State.resetWith c).spWorker = .idle ∧
    (State.resetWith c).drainRound = 0 ∧ (State.resetWith c).drainAttempt = 0 ∧
    (State.resetWith c).arg0 = 0 ∧ (State.resetWith c).arg1 = 0 ∧ (State.resetWith c).arg2 = 0 ∧
    hpRead 0x10 (State.resetWith c) = 0 ∧ (State.resetWith c).rdata = 0 ∧
    (∀ r : TxReg, (State.resetWith c).tx.get r = 0) ∧ (State.resetWith c).trace = [] ∧ (State.resetWith c).cfg = c ∧
    (c.fixedOk = true → c.audioRateReset = .r48k ∧ c.sinkInfoReset = ⟨true, 0⟩)

/-- The invariant holds after reset, for every configuration whose fixed parameters have their values, so at `State.reset`
too (10_state R15, 00_scope R5). -/
def Obligations.InvariantHoldsAtReset : Prop :=
  (∀ c : Config, c.fixedOk = true → Inv (State.resetWith c)) ∧ Inv State.reset

/-- Every step of every agent keeps the invariant: I-a and I-c to I-f of 10_state R15, the queue and flag agreements of R16
and R17, INT_EN with the pending interrupt (60_exceptions R187), the counters, the pointers, the error codes, reserved bits
0, the fixed parameters as they are (00_scope R5). -/
def Obligations.EveryStepKeepsTheInvariant : Prop :=
  ∀ s t : State, Inv s → step s = .next t → Inv t

/-- The trace is append-only, and the registers change by exactly the RegWrite records a step adds, in their order
(10_state R30, 20_memory R48, R49). It says what this engine stores, not what a real block would hold across a disabled
power domain (20_memory R55, log 8). -/
def Obligations.TraceRecordsEveryRegisterChange : Prop :=
  ∀ s t : State, step s = .next t → ∃ l, t.trace = s.trace ++ l ∧ t.tx = replayWrites s.tx l

/-- The calls for each power domain pair up: enabled only while off, disabled only while on, and the flags are what the
recorded calls say (60_exceptions R196, 10_state R18). -/
def Obligations.DomainCallsAlternate : Prop :=
  ∀ s t : State, Inv s → step s = .next t →
    ∃ l, t.trace = s.trace ++ l ∧ ∀ d : Domain, replayDomain d (s.enabled.get d) l = some (t.enabled.get d)

/-- The complete transition relation of the hot-plug state machine: no step changes `hpdState` but those of its table, by
the operation and on the condition the table gives (40_hotplug_fsm R80). -/
def Obligations.HotplugStateFollowsItsTable : Prop :=
  ∀ s t : State, step s = .next t →
    t.ts.hpdState = s.ts.hpdState ∨
    (s.ts.hpdState = .hpdOff ∧ t.ts.hpdState = .hpdArmed ∧ (nextStimulus s).action = .hostWrite 0x00 0x101 ∧
      (nextStimulus s).draws.enableHotplug = true) ∨
    ((s.ts.hpdState = .hpdArmed ∨ s.ts.hpdState = .disconnected) ∧ t.ts.hpdState = .connected ∧
      (nextStimulus s).action = .worker ∧ s.wq.head? = some .hpd ∧ s.sense = true ∧
      ∃ before, t.trace = s.trace ++ before ++ [.connChanged .connected]) ∨
    ((s.ts.hpdState = .hpdArmed ∨ s.ts.hpdState = .connected) ∧ t.ts.hpdState = .disconnected ∧
      (nextStimulus s).action = .worker ∧ s.wq.head? = some .hpd ∧ s.sense = false ∧
      ∃ before, t.trace = s.trace ++ before ++ [.connChanged .disconnected]) ∨
    (s.ts.hpdState ≠ .hpdOff ∧ t.ts.hpdState = .hpdOff ∧ (nextStimulus s).action = .hostWrite 0x00 0x001 ∧
      s.ts.panelPoweredOn = false) ∨
    (s.ts.hpdState ≠ .hpdOff ∧ t.ts.hpdState = .hpdOff ∧ (nextStimulus s).action = .worker ∧
      s.spWorker = .powerOffTask .p3 ∧ s.ts.hotplugOffPending = true)

/-- Only HOST's commands raise and complete: a step of IRQ, WORKER or ENV, or a read by HOST, leaves RESULT, RDATA, the ARG
registers, CMD and `sp.HOST`, and records no `Done` (60_exceptions R192, R194). -/
def Obligations.OnlyHostCommandsRaise : Prop :=
  ∀ (s t : State) (l : List Rec) (op e : Byte), step s = .next t → t.trace = s.trace ++ l →
    (nextStimulus s).action = .irq ∨ (nextStimulus s).action = .worker ∨
      (∃ level, (nextStimulus s).action = .setSense level) ∨ (∃ offset, (nextStimulus s).action = .hostRead offset) →
    t.err = s.err ∧ t.busy = s.busy ∧ t.rdata = s.rdata ∧ t.arg0 = s.arg0 ∧ t.arg1 = s.arg1 ∧ t.arg2 = s.arg2 ∧
      t.cmd = s.cmd ∧ t.spHost = s.spHost ∧ Rec.done op e ∉ l

/-- The interrupt handler neither reads nor writes `TransmitterState`: changing it changes nothing else of what CONN_IRQ
does, and CONN_IRQ leaves it as it is (40_hotplug_fsm R85). -/
def Obligations.InterruptIgnoresTransmitterState : Prop :=
  ∀ (s t : State) (ts : TransmitterState), exec .connIrq s = .next t →
    t.ts = s.ts ∧ exec .connIrq { s with ts := ts } = .next { t with ts := ts }

/-- The stale connection state is not acted upon: while hot-plug is off, changing it changes nothing of what any step does,
but that QUERY_CONN returns the stored bit (10_state R15 I-b, 40_hotplug_fsm R90). -/
def Obligations.StaleConnectionIsNotActedUpon : Prop :=
  ∀ (s t : State) (c : Connection), Inv s → s.ts.hpdState = .hpdOff → (nextStimulus s).action ≠ .hostWrite 0x00 0x6 →
    step s = .next t →
    step { s with ts := { s.ts with connectionState := c } } = .next { t with ts := { t.ts with connectionState := c } }

/-- No step writes the tables and parameters, and no step but a HOST write of its own offset writes an ARG register
(10_state R31, R10). -/
def Obligations.TablesAndArgumentsAreNotWritten : Prop :=
  ∀ s t : State, step s = .next t →
    t.cfg = s.cfg ∧
    (t.arg0 = s.arg0 ∨ (nextStimulus s).action = .hostWrite 0x04 t.arg0) ∧
    (t.arg1 = s.arg1 ∨ (nextStimulus s).action = .hostWrite 0x08 t.arg1) ∧
    (t.arg2 = s.arg2 ∨ (nextStimulus s).action = .hostWrite 0x0C t.arg2)

/-- The power states off, sensing and link up are the only combinations of the domain flags between transitions
(60_exceptions R199). -/
def Obligations.PowerStatesAreTheThreeOfTheTable : Prop :=
  ∀ s : State, Inv s → powerState s = some .off ∨ powerState s = some .sensing ∨ powerState s = some .linkUp

/-- Who writes each field of `TransmitterState`: a worker's step leaves the suspended flag, the format, the rate and the
geometry; a step of HOST leaves the connection state and never clears a deferred disable; IRQ and ENV leave all of it
(10_state R13). -/
def Obligations.FieldsHaveTheirWriters : Prop :=
  ∀ s t : State, step s = .next t →
    ((nextStimulus s).action = .worker →
      t.ts.panelSuspended = s.ts.panelSuspended ∧ t.ts.activeFormat = s.ts.activeFormat ∧
      t.ts.audioSampleRate = s.ts.audioSampleRate ∧ t.ts.xres = s.ts.xres ∧ t.ts.yres = s.ts.yres ∧
      t.ts.frameRate = s.ts.frameRate) ∧
    ((nextStimulus s).action ≠ .worker →
      t.ts.connectionState = s.ts.connectionState ∧ (s.ts.hotplugOffPending = true → t.ts.hotplugOffPending = true)) ∧
    ((nextStimulus s).action = .irq ∨ (∃ level, (nextStimulus s).action = .setSense level) → t.ts = s.ts)

/-- The line driven to the level it already has: the latch is evaluated as after a change. The spec speaks of a change only;
this is the model's choice (log 15). -/
def Obligations.LineDrivenToItsLevelEvaluatesTheLatch : Prop :=
  ∀ (s : State) (d : Draws) (rest : List Stimulus), s.agenda = ⟨.setSense s.sense, d⟩ :: rest →
    step s = .next
      { s with
        agenda := rest
        tick := s.tick + 1
        draws := d
        intPending := s.intPending || (s.tx.hpdIntCtrl.getLsbD 2 && (s.sense == s.tx.hpdIntCtrl.getLsbD 1)) }

/-- A WORKER line without a label runs the task at the head of the queue to completion, whatever ENV answers: at most one
step of P1, 7500 polls and one step of P3 (30_encoding R71, 10_state R17, 43_audio_drain R137). WORKER is then idle, the
task is off the queue, HPD too where a teardown removed it, and a power-off has powered the physical layer down once. That
a line is run with one answer of ENV for each step is the model's choice (log 16). -/
def Obligations.WorkerLineRunsItsTaskToCompletion : Prop :=
  ∀ (s : State) (task : Task) (q : List Task) (answers : List Draws), s.cfg.fixedOk = true → s.spWorker = .idle →
    s.wq = task :: q → 7502 ≤ answers.length →
    ∃ t l, (ScriptLine.worker none).run answers s = .next t ∧ t.spWorker = .idle ∧ t.agenda = s.agenda ∧
      (t.wq = q ∨ t.wq = q.filter (· ≠ .hpd)) ∧ t.trace = s.trace ++ l ∧
      l.count .callPowerDownPhysicalLayer = (if task = .off then 1 else 0)
end

