-- ==== Sys2Proof/Laws/State.lean ====
section
/-! SUPPORT. What each record update of Ops.lean leaves and what it changes: one simp fact for each field of each update,
so that no later proof unfolds a record update. The facts of one update stand in one conjunction, which simp splits. -/

namespace Sys2Proof.Machine

variable (s : State)

/-- A record is appended to the trace; every other field is as it was. -/
@[simp] theorem emit_keeps (r : Rec) :
    (emit r s).cfg = s.cfg ∧ (emit r s).cmd = s.cmd ∧ (emit r s).arg0 = s.arg0 ∧ (emit r s).arg1 = s.arg1 ∧
    (emit r s).arg2 = s.arg2 ∧ (emit r s).err = s.err ∧ (emit r s).busy = s.busy ∧ (emit r s).rdata = s.rdata ∧
    (emit r s).spHost = s.spHost ∧ (emit r s).spWorker = s.spWorker ∧ (emit r s).ts = s.ts ∧
    (emit r s).offPending = s.offPending ∧ (emit r s).intPending = s.intPending ∧
    (emit r s).hpdTaskPending = s.hpdTaskPending ∧ (emit r s).hpdEventSeen = s.hpdEventSeen ∧ (emit r s).wq = s.wq ∧
    (emit r s).enabled = s.enabled ∧ (emit r s).sinkInfo = s.sinkInfo ∧ (emit r s).drainRound = s.drainRound ∧
    (emit r s).drainAttempt = s.drainAttempt ∧ (emit r s).tx = s.tx ∧ (emit r s).sense = s.sense ∧
    (emit r s).draws = s.draws ∧ (emit r s).agenda = s.agenda ∧ (emit r s).tick = s.tick ∧ (emit r s).ret = s.ret := by
  simp [emit]

@[simp] theorem emit_changes (r : Rec) :
    (emit r s).trace = (s.trace ++ [r]) := by
  simp [emit]

/-- A register write touches the registers, `intPending` and the trace only (20_memory R46). -/
@[simp] theorem txWrite_keeps (r : TxReg) (v : Word) :
    (txWrite r v s).cfg = s.cfg ∧ (txWrite r v s).cmd = s.cmd ∧ (txWrite r v s).arg0 = s.arg0 ∧
    (txWrite r v s).arg1 = s.arg1 ∧ (txWrite r v s).arg2 = s.arg2 ∧ (txWrite r v s).err = s.err ∧
    (txWrite r v s).busy = s.busy ∧ (txWrite r v s).rdata = s.rdata ∧ (txWrite r v s).spHost = s.spHost ∧
    (txWrite r v s).spWorker = s.spWorker ∧ (txWrite r v s).ts = s.ts ∧ (txWrite r v s).offPending = s.offPending ∧
    (txWrite r v s).hpdTaskPending = s.hpdTaskPending ∧ (txWrite r v s).hpdEventSeen = s.hpdEventSeen ∧
    (txWrite r v s).wq = s.wq ∧ (txWrite r v s).enabled = s.enabled ∧ (txWrite r v s).sinkInfo = s.sinkInfo ∧
    (txWrite r v s).drainRound = s.drainRound ∧ (txWrite r v s).drainAttempt = s.drainAttempt ∧
    (txWrite r v s).sense = s.sense ∧ (txWrite r v s).draws = s.draws ∧ (txWrite r v s).agenda = s.agenda ∧
    (txWrite r v s).tick = s.tick ∧ (txWrite r v s).ret = s.ret := by
  simp [txWrite]

@[simp] theorem txWrite_changes (r : TxReg) (v : Word) :
    (txWrite r v s).tx = (s.tx.set r v) ∧
    (txWrite r v s).intPending = (pendingAfterWrite r v s) ∧
    (txWrite r v s).trace = (s.trace ++ [.regWrite r.offset v]) := by
  simp [txWrite]

/-- An enable call touches the domain flags and the trace only (60_exceptions R196). -/
@[simp] theorem enableDomain_keeps (d : Domain) :
    (enableDomain d s).cfg = s.cfg ∧ (enableDomain d s).cmd = s.cmd ∧ (enableDomain d s).arg0 = s.arg0 ∧
    (enableDomain d s).arg1 = s.arg1 ∧ (enableDomain d s).arg2 = s.arg2 ∧ (enableDomain d s).err = s.err ∧
    (enableDomain d s).busy = s.busy ∧ (enableDomain d s).rdata = s.rdata ∧ (enableDomain d s).spHost = s.spHost ∧
    (enableDomain d s).spWorker = s.spWorker ∧ (enableDomain d s).ts = s.ts ∧
    (enableDomain d s).offPending = s.offPending ∧ (enableDomain d s).intPending = s.intPending ∧
    (enableDomain d s).hpdTaskPending = s.hpdTaskPending ∧ (enableDomain d s).hpdEventSeen = s.hpdEventSeen ∧
    (enableDomain d s).wq = s.wq ∧ (enableDomain d s).sinkInfo = s.sinkInfo ∧
    (enableDomain d s).drainRound = s.drainRound ∧ (enableDomain d s).drainAttempt = s.drainAttempt ∧
    (enableDomain d s).tx = s.tx ∧ (enableDomain d s).sense = s.sense ∧ (enableDomain d s).draws = s.draws ∧
    (enableDomain d s).agenda = s.agenda ∧ (enableDomain d s).tick = s.tick ∧ (enableDomain d s).ret = s.ret := by
  simp [enableDomain]

@[simp] theorem enableDomain_changes (d : Domain) :
    (enableDomain d s).enabled = (if drawEnable d s then s.enabled.set d true else s.enabled) ∧
    (enableDomain d s).trace = (s.trace ++ [.callEnable d (drawEnable d s)]) := by
  simp [enableDomain]

/-- A disable call touches the domain flags and the trace only (60_exceptions R196). -/
@[simp] theorem disableDomain_keeps (d : Domain) :
    (disableDomain d s).cfg = s.cfg ∧ (disableDomain d s).cmd = s.cmd ∧ (disableDomain d s).arg0 = s.arg0 ∧
    (disableDomain d s).arg1 = s.arg1 ∧ (disableDomain d s).arg2 = s.arg2 ∧ (disableDomain d s).err = s.err ∧
    (disableDomain d s).busy = s.busy ∧ (disableDomain d s).rdata = s.rdata ∧ (disableDomain d s).spHost = s.spHost ∧
    (disableDomain d s).spWorker = s.spWorker ∧ (disableDomain d s).ts = s.ts ∧
    (disableDomain d s).offPending = s.offPending ∧ (disableDomain d s).intPending = s.intPending ∧
    (disableDomain d s).hpdTaskPending = s.hpdTaskPending ∧ (disableDomain d s).hpdEventSeen = s.hpdEventSeen ∧
    (disableDomain d s).wq = s.wq ∧ (disableDomain d s).sinkInfo = s.sinkInfo ∧
    (disableDomain d s).drainRound = s.drainRound ∧ (disableDomain d s).drainAttempt = s.drainAttempt ∧
    (disableDomain d s).tx = s.tx ∧ (disableDomain d s).sense = s.sense ∧ (disableDomain d s).draws = s.draws ∧
    (disableDomain d s).agenda = s.agenda ∧ (disableDomain d s).tick = s.tick ∧ (disableDomain d s).ret = s.ret := by
  simp [disableDomain]

@[simp] theorem disableDomain_changes (d : Domain) :
    (disableDomain d s).enabled = (s.enabled.set d false) ∧
    (disableDomain d s).trace = (s.trace ++ [.callDisable d]) := by
  simp [disableDomain]

/-- Delivering a function's result touches `ret` only. -/
@[simp] theorem returning_keeps (r : Ret) :
    (returning r s).cfg = s.cfg ∧ (returning r s).cmd = s.cmd ∧ (returning r s).arg0 = s.arg0 ∧
    (returning r s).arg1 = s.arg1 ∧ (returning r s).arg2 = s.arg2 ∧ (returning r s).err = s.err ∧
    (returning r s).busy = s.busy ∧ (returning r s).rdata = s.rdata ∧ (returning r s).spHost = s.spHost ∧
    (returning r s).spWorker = s.spWorker ∧ (returning r s).ts = s.ts ∧ (returning r s).offPending = s.offPending ∧
    (returning r s).intPending = s.intPending ∧ (returning r s).hpdTaskPending = s.hpdTaskPending ∧
    (returning r s).hpdEventSeen = s.hpdEventSeen ∧ (returning r s).wq = s.wq ∧ (returning r s).enabled = s.enabled ∧
    (returning r s).sinkInfo = s.sinkInfo ∧ (returning r s).drainRound = s.drainRound ∧
    (returning r s).drainAttempt = s.drainAttempt ∧ (returning r s).tx = s.tx ∧ (returning r s).trace = s.trace ∧
    (returning r s).sense = s.sense ∧ (returning r s).draws = s.draws ∧ (returning r s).agenda = s.agenda ∧
    (returning r s).tick = s.tick := by
  simp [returning]

@[simp] theorem returning_changes (r : Ret) :
    (returning r s).ret = r := by
  simp [returning]

/-- The end of a host command touches RESULT, `sp.HOST` and the trace only (60_exceptions R192). -/
@[simp] theorem finish_keeps (op err : Byte) :
    (finish op err s).cfg = s.cfg ∧ (finish op err s).cmd = s.cmd ∧ (finish op err s).arg0 = s.arg0 ∧
    (finish op err s).arg1 = s.arg1 ∧ (finish op err s).arg2 = s.arg2 ∧ (finish op err s).rdata = s.rdata ∧
    (finish op err s).spWorker = s.spWorker ∧ (finish op err s).ts = s.ts ∧
    (finish op err s).offPending = s.offPending ∧ (finish op err s).intPending = s.intPending ∧
    (finish op err s).hpdTaskPending = s.hpdTaskPending ∧ (finish op err s).hpdEventSeen = s.hpdEventSeen ∧
    (finish op err s).wq = s.wq ∧ (finish op err s).enabled = s.enabled ∧ (finish op err s).sinkInfo = s.sinkInfo ∧
    (finish op err s).drainRound = s.drainRound ∧ (finish op err s).drainAttempt = s.drainAttempt ∧
    (finish op err s).tx = s.tx ∧ (finish op err s).sense = s.sense ∧ (finish op err s).draws = s.draws ∧
    (finish op err s).agenda = s.agenda ∧ (finish op err s).tick = s.tick ∧ (finish op err s).ret = s.ret := by
  simp [finish]

@[simp] theorem finish_changes (op err : Byte) :
    (finish op err s).err = err ∧
    (finish op err s).busy = false ∧
    (finish op err s).spHost = .idle ∧
    (finish op err s).trace = (s.trace ++ [.done op err]) := by
  simp [finish]

/-- A change of the line touches the line and `intPending` only (60_exceptions R188). -/
@[simp] theorem changeSense_keeps (level : Bool) :
    (changeSense level s).cfg = s.cfg ∧ (changeSense level s).cmd = s.cmd ∧ (changeSense level s).arg0 = s.arg0 ∧
    (changeSense level s).arg1 = s.arg1 ∧ (changeSense level s).arg2 = s.arg2 ∧ (changeSense level s).err = s.err ∧
    (changeSense level s).busy = s.busy ∧ (changeSense level s).rdata = s.rdata ∧
    (changeSense level s).spHost = s.spHost ∧ (changeSense level s).spWorker = s.spWorker ∧
    (changeSense level s).ts = s.ts ∧ (changeSense level s).offPending = s.offPending ∧
    (changeSense level s).hpdTaskPending = s.hpdTaskPending ∧ (changeSense level s).hpdEventSeen = s.hpdEventSeen ∧
    (changeSense level s).wq = s.wq ∧ (changeSense level s).enabled = s.enabled ∧
    (changeSense level s).sinkInfo = s.sinkInfo ∧ (changeSense level s).drainRound = s.drainRound ∧
    (changeSense level s).drainAttempt = s.drainAttempt ∧ (changeSense level s).tx = s.tx ∧
    (changeSense level s).trace = s.trace ∧ (changeSense level s).draws = s.draws ∧
    (changeSense level s).agenda = s.agenda ∧ (changeSense level s).tick = s.tick ∧ (changeSense level s).ret = s.ret := by
  simp [changeSense]

@[simp] theorem changeSense_changes (level : Bool) :
    (changeSense level s).sense = level ∧
    (changeSense level s).intPending = (latch s.tx.hpdIntCtrl level s.intPending) := by
  simp [changeSense]

/-- Taking a stimulus touches the model's own fields and ENV's answers only. -/
@[simp] theorem prepare_keeps :
    (prepare s).cfg = s.cfg ∧ (prepare s).cmd = s.cmd ∧ (prepare s).arg0 = s.arg0 ∧ (prepare s).arg1 = s.arg1 ∧
    (prepare s).arg2 = s.arg2 ∧ (prepare s).err = s.err ∧ (prepare s).busy = s.busy ∧ (prepare s).rdata = s.rdata ∧
    (prepare s).spHost = s.spHost ∧ (prepare s).spWorker = s.spWorker ∧ (prepare s).ts = s.ts ∧
    (prepare s).offPending = s.offPending ∧ (prepare s).intPending = s.intPending ∧
    (prepare s).hpdTaskPending = s.hpdTaskPending ∧ (prepare s).hpdEventSeen = s.hpdEventSeen ∧
    (prepare s).wq = s.wq ∧ (prepare s).enabled = s.enabled ∧ (prepare s).sinkInfo = s.sinkInfo ∧
    (prepare s).drainRound = s.drainRound ∧ (prepare s).drainAttempt = s.drainAttempt ∧ (prepare s).tx = s.tx ∧
    (prepare s).trace = s.trace ∧ (prepare s).sense = s.sense ∧ (prepare s).ret = s.ret := by
  simp [prepare]

@[simp] theorem prepare_changes :
    (prepare s).agenda = s.agenda.tail ∧
    (prepare s).tick = (s.tick + 1) ∧
    (prepare s).draws = ((nextStimulus s).draws) := by
  simp [prepare]

/-- Success and `raise` are the one end of a host command with their code (60_exceptions R185, R192). -/
@[simp] theorem complete_eq_finish (op : Byte) : complete op s = finish op 0 s := rfl

@[simp] theorem raise_eq_finish (k : ErrKind) (op : Byte) : raise k op s = finish op k.code s := rfl

end Sys2Proof.Machine
end

