-- ==== Sys2Proof/Laws/Ops.lean ====
section
/-! SUPPORT. What the shared operations do: register reads after writes, the latch, lists of writes, calls of a domain. -/

namespace Sys2Proof.Machine

/-- A register that stores a word (10_state R21 to R26). -/
def TxReg.stored (r : TxReg) : Bool := r != .hpdIntAck && r != .hpdIntStatus && r != .audioCfg

/-- A read after a write of the same register gives the value written (20_memory R48). -/
theorem TxRegs.get_set_same (t : TxRegs) (r : TxReg) (v : Word) (h : r.stored = true) : (t.set r v).get r = v := by
  cases r <;> first | rfl | simp [TxReg.stored] at h

/-- A write leaves every other register (20_memory R48). -/
theorem TxRegs.get_set_ne (t : TxRegs) (r q : TxReg) (v : Word) (h : q ≠ r) : (t.set r v).get q = t.get q := by
  cases r <;> cases q <;> first | rfl | exact absurd rfl h

theorem TxRegs.get_set (t : TxRegs) (r q : TxReg) (v : Word) :
    (t.set r v).get q = if q = r ∧ r.stored = true then v else t.get q := by
  by_cases h : q = r
  · subst h
    by_cases hs : q.stored = true
    · simp [hs, TxRegs.get_set_same t q v hs]
    · simp only [hs]
      cases q <;> first | rfl | simp [TxReg.stored] at hs
  · simp [h, TxRegs.get_set_ne t r q v h]

@[simp] theorem TxRegs.set_hpdIntCtrl (t : TxRegs) (v : Word) : (t.set .hpdIntCtrl v).hpdIntCtrl = v := rfl

/-- Only a write of HPD_INT_CTRL changes it. -/
theorem TxRegs.set_hpdIntCtrl_ne (t : TxRegs) (r : TxReg) (v : Word) (h : r ≠ .hpdIntCtrl) :
    (t.set r v).hpdIntCtrl = t.hpdIntCtrl := by
  cases r <;> first | rfl | exact absurd rfl h

/-- Setting a register to a word without reserved bits keeps every reserved bit 0. -/
theorem reservedZero_set {t : TxRegs} (ht : reservedZero t) {r : TxReg} {v : Word} (hv : v &&& ~~~r.mask = 0) :
    reservedZero (t.set r v) := by
  intro q
  rw [TxRegs.get_set]
  split
  · next h => rw [h.1]; exact hv
  · exact ht q

/-- The offsets of the map name their registers. -/
@[simp] theorem txReg?_offset (r : TxReg) : txReg? r.offset = some r := by
  cases r <;> rfl

/-- Every offset of the map is a multiple of 4, at most 0x88 (20_memory R42, R45). -/
theorem TxReg.offset_aligned (r : TxReg) : r.offset % 4 = 0 ∧ r.offset ≤ 0x88 := by
  cases r <;> decide

/-- The sense bit a read of HPD_INT_STATUS returns is the live line (10_state R21). -/
@[simp] theorem readSenseBit_eq (s : State) : readSenseBit s = s.sense := by
  show (hpdIntStatusWord s).getLsbD 1 = s.sense
  unfold hpdIntStatusWord
  cases s.intPending <;> cases s.sense <;> decide

/-- Bit 0 of a read of HPD_INT_STATUS is `intPending` (10_state R21). -/
@[simp] theorem statusPending_eq (s : State) : (txRead .hpdIntStatus s).getLsbD 0 = s.intPending := by
  show (hpdIntStatusWord s).getLsbD 0 = s.intPending
  unfold hpdIntStatusWord
  cases s.intPending <;> cases s.sense <;> decide

/-- The bit a read of AUDIO_CFG returns is ENV's answer (10_state R21). -/
@[simp] theorem readEngineActive_eq (s : State) : readEngineActive s = s.draws.engineActive := by
  show (audioCfgWord s).getLsbD 0 = s.draws.engineActive
  unfold audioCfgWord
  cases s.draws.engineActive <;> decide

/-- A read of HPD_INT_STATUS or AUDIO_CFG is one record and nothing else (20_memory R46). -/
theorem noteRead_status (s : State) :
    noteRead .hpdIntStatus s = emit (.regRead 0x0C (txRead .hpdIntStatus s)) s := rfl

theorem noteRead_audioCfg (s : State) :
    noteRead .audioCfg s = emit (.regRead 0x10 (txRead .audioCfg s)) s := rfl

/-- The words `watchWord` writes: 0x6 to watch for a connect, 0x4 for a disconnect (40_hotplug_fsm, opening). -/
@[simp] theorem watchWord_true : watchWord true = 0x6 := by decide

@[simp] theorem watchWord_false : watchWord false = 0x4 := by decide

/-- `watchWord` enables delivery. -/
@[simp] theorem intEnBit_watchWord (b : Bool) : intEnBit (watchWord b) = true := by cases b <;> decide

/-- `watchWord` sets no reserved bit. -/
theorem watchWord_reserved (b : Bool) : watchWord b &&& ~~~TxReg.hpdIntCtrl.mask = 0 := by cases b <;> decide

/-- The latch never clears `intPending` (60_exceptions R188). -/
theorem latch_of_pending {ctrl : Word} {sense pending : Bool} (h : pending = true) :
    latch ctrl sense pending = true := by
  simp [latch, h]

/-- With delivery off nothing is latched (60_exceptions R189). -/
theorem latch_disabled {ctrl : Word} {sense pending : Bool} (h : intEnBit ctrl = false) :
    latch ctrl sense pending = pending := by
  simp [latch, h]

/-- The arm sequence sets `intPending` whatever the line holds (40_hotplug_fsm R81). -/
theorem latch_toggle (sense pending : Bool) :
    latch 0x6 sense (latch 0x4 sense (latch 0x2 sense pending)) = true := by
  cases sense <;> cases pending <;> decide

/-- A write that is no acknowledge and not of HPD_INT_CTRL leaves `intPending` (20_memory R46). -/
theorem pendingAfterWrite_plain (r : TxReg) (v : Word) (s : State) (h1 : r ≠ .hpdIntCtrl) (h2 : r ≠ .hpdIntAck) :
    pendingAfterWrite r v s = s.intPending := by
  cases r <;> first | rfl | exact absurd rfl h1 | exact absurd rfl h2

/-- A write neither of HPD_INT_CTRL nor of HPD_INT_ACK. -/
def plainWrite (w : TxReg × Word) : Bool := w.1 != .hpdIntCtrl && w.1 != .hpdIntAck

/-- The registers after a list of writes. -/
def setAll (t : TxRegs) (ws : List (TxReg × Word)) : TxRegs := ws.foldl (fun t w => t.set w.1 w.2) t

/-- A list of plain writes records each write in order and changes registers only (20_memory R49). -/
theorem txWrites_plain (ws : List (TxReg × Word)) (s : State) (h : ws.all plainWrite = true) :
    txWrites ws s = { s with tx := setAll s.tx ws, trace := s.trace ++ writeRecords ws } := by
  induction ws generalizing s with
  | nil => simp [txWrites, setAll, writeRecords]
  | cons w ws ih =>
    simp only [List.all_cons, Bool.and_eq_true, plainWrite, bne_iff_ne, ne_eq] at h
    have hw := pendingAfterWrite_plain w.1 w.2 s h.1.1 h.1.2
    have := ih (txWrite w.1 w.2 s) h.2
    simp only [txWrites, List.foldl_cons] at this ⊢
    rw [this]
    simp [txWrite, hw, setAll, writeRecords]

/-- Plain writes leave HPD_INT_CTRL. -/
theorem setAll_hpdIntCtrl (ws : List (TxReg × Word)) (t : TxRegs) (h : ws.all plainWrite = true) :
    (setAll t ws).hpdIntCtrl = t.hpdIntCtrl := by
  induction ws generalizing t with
  | nil => rfl
  | cons w ws ih =>
    simp only [List.all_cons, Bool.and_eq_true, plainWrite, bne_iff_ne, ne_eq] at h
    have := ih (t.set w.1 w.2) h.2
    simp only [setAll, List.foldl_cons] at this ⊢
    rw [this, TxRegs.set_hpdIntCtrl_ne _ _ _ h.1.1]

/-- Writes without reserved bits keep every reserved bit 0. -/
theorem reservedZero_setAll (ws : List (TxReg × Word)) {t : TxRegs} (ht : reservedZero t)
    (h : ∀ w ∈ ws, w.2 &&& ~~~w.1.mask = 0) : reservedZero (setAll t ws) := by
  induction ws generalizing t with
  | nil => exact ht
  | cons w ws ih =>
    exact ih (reservedZero_set ht (h w (by simp))) (fun x hx => h x (by simp [hx]))

/-- `enabled` after a call, as a function of the domain asked. -/
@[simp] theorem Enabled.get_set (e : Enabled) (d d' : Domain) (b : Bool) :
    (e.set d b).get d' = if d' = d then b else e.get d' := by
  cases d <;> cases d' <;> rfl

/-- What a list of writes does to the registers is what its records say (10_state R30). -/
theorem replayWrites_writeRecords (ws : List (TxReg × Word)) (t : TxRegs) :
    replayWrites t (writeRecords ws) = setAll t ws := by
  induction ws generalizing t with
  | nil => rfl
  | cons w ws ih => simp [writeRecords, replayWrites, setAll] at ih ⊢; exact ih _

/-- Replaying two stretches of the trace one after the other. -/
theorem replayWrites_append (t : TxRegs) (l m : List Rec) :
    replayWrites t (l ++ m) = replayWrites (replayWrites t l) m := by
  induction l generalizing t with
  | nil => rfl
  | cons r l ih =>
    cases r <;> simp only [List.cons_append, replayWrites, ih]
    split <;> rfl

/-- Calls of a domain over two stretches of the trace. -/
theorem replayDomain_append (d : Domain) (on : Bool) (l m : List Rec) :
    replayDomain d on (l ++ m) = (replayDomain d on l).bind fun b => replayDomain d b m := by
  induction l generalizing on with
  | nil => rfl
  | cons r l ih =>
    cases r <;> simp only [List.cons_append, replayDomain, ih]
    all_goals (repeat' split) <;> rfl

end Sys2Proof.Machine
end

