-- ==== Sys2Proof/Laws/Packing.lean ====
section
/-! SUPPORT. Packed words read as numbers: the lanes of packet words, the halves of timing words, the masks of the decoder,
and the checksum. -/

namespace Sys2Proof.Machine

/-- A value OR-ed in above the bits another one uses is added. -/
theorem or_shift {x i : Nat} (h : x < 2 ^ i) (y : Nat) : x ||| y <<< i = x + y * 2 ^ i := by
  rw [Nat.or_comm, ← Nat.shiftLeft_add_eq_or_of_lt h, Nat.shiftLeft_eq, Nat.add_comm]

/-- A byte moved up within a word keeps all its bits. -/
theorem byte_shift_toNat (x : Byte) (k : Nat) (hk : k ≤ 24) : (x.setWidth 32 <<< k).toNat = x.toNat <<< k := by
  have hx := x.isLt
  have hp : 2 ^ k ≤ 2 ^ 24 := Nat.pow_le_pow_right (by omega) hk
  have : x.toNat * 2 ^ k < 2 ^ 32 := by nlinarith [Nat.two_pow_pos k]
  simp only [BitVec.toNat_shiftLeft, BitVec.toNat_setWidth, Nat.shiftLeft_eq]
  rw [Nat.mod_eq_of_lt (show x.toNat < 2 ^ 32 by omega), Nat.mod_eq_of_lt this]

/-- Byte k of a group of four counts 2^(8k) (20_memory R43). -/
theorem pack4_toNat (a b c d : Byte) :
    (pack4 a b c d).toNat = a.toNat + b.toNat * 2 ^ 8 + c.toNat * 2 ^ 16 + d.toNat * 2 ^ 24 := by
  have ha := a.isLt
  have hb := b.isLt
  have hc := c.isLt
  unfold pack4
  simp only [BitVec.toNat_or, byte_shift_toNat _ 8 (by omega), byte_shift_toNat _ 16 (by omega),
    byte_shift_toNat _ 24 (by omega), BitVec.toNat_setWidth]
  rw [Nat.mod_eq_of_lt (by omega), or_shift (x := a.toNat) (by omega), or_shift (i := 16) (by omega), or_shift (by omega)]

/-- The two halves of a timing word (10_state R22). -/
theorem pack12_toNat (h l : BitVec 12) : (pack12 h l).toNat = h.toNat * 65536 + l.toNat := by
  have hh := h.isLt
  have hl := l.isLt
  unfold pack12
  simp only [BitVec.toNat_or, BitVec.toNat_shiftLeft, BitVec.toNat_setWidth]
  rw [Nat.mod_eq_of_lt (show l.toNat < 2 ^ 32 by omega), Nat.mod_eq_of_lt (show h.toNat < 2 ^ 32 by omega),
    Nat.mod_eq_of_lt (by rw [Nat.shiftLeft_eq]; omega), Nat.or_comm, or_shift (by omega)]
  omega

/-- `f12` of a value that is not negative (42_timing R123). -/
theorem f12_ofNat (n : Nat) : (f12 (n : Int)).toNat = n % 4096 := by
  unfold f12
  rw [show ((n : Int) % 4096).toNat = n % 4096 by omega]
  simp

/-- The sum of two stretches of bytes. -/
theorem byteSum_append (a b : List Byte) : byteSum (a ++ b) = byteSum a + byteSum b := by simp [byteSum]

/-- A 7-bit byte is the byte modulo 128 (44_infoframes R153). -/
theorem ascii7_toNat (b : Byte) : (ascii7 b).toNat = b.toNat % 128 := by
  simp only [ascii7, BitVec.toNat_and]
  exact Nat.and_two_pow_sub_one_eq_mod b.toNat 7

/-- A quotient of a 32-bit number fits a word (45_acr R171). -/
theorem quotient_toNat (n : Word) (k : Nat) : (BitVec.ofNat 32 (n.toNat / k)).toNat = n.toNat / k := by
  simp only [BitVec.toNat_ofNat]
  exact Nat.mod_eq_of_lt (lt_of_le_of_lt (Nat.div_le_self _ _) n.isLt)

/-- The decoder's test of the bits above a format's low `k` bits (30_encoding R61). -/
theorem maskedOff_iff (w : Word) (k : Nat) (h : k ≤ 32) :
    w &&& ~~~BitVec.ofNat 32 (2 ^ k - 1) = 0 ↔ w.toNat < 2 ^ k := by
  have hpos : 0 < 2 ^ k := Nat.two_pow_pos k
  have hle : 2 ^ k ≤ 2 ^ 32 := Nat.pow_le_pow_right (by omega) h
  have hmask : (BitVec.ofNat 32 (2 ^ k - 1)).toNat = 2 ^ k - 1 := Nat.mod_eq_of_lt (by omega)
  have hbit : ∀ i, i < 32 → (BitVec.ofNat 32 (2 ^ k - 1)).getLsbD i = decide (i < k) := by
    intro i hi
    rw [BitVec.getLsbD_ofNat, Nat.testBit_two_pow_sub_one]
    simp [hi]
  constructor
  · intro h0
    have : w = w &&& BitVec.ofNat 32 (2 ^ k - 1) := by
      apply BitVec.eq_of_getLsbD_eq
      intro i hi
      have hb := congrArg (fun x => x.getLsbD i) h0
      simp only [BitVec.getLsbD_and, BitVec.getLsbD_not, hbit i hi] at hb ⊢
      cases hw : w.getLsbD i <;> simp_all
    rw [this, BitVec.toNat_and, hmask, Nat.and_two_pow_sub_one_eq_mod]
    exact Nat.mod_lt _ hpos
  · intro hlt
    apply BitVec.eq_of_getLsbD_eq
    intro i hi
    simp only [BitVec.getLsbD_and, BitVec.getLsbD_not, hbit i hi]
    by_cases hik : i < k
    · simp [hik]
    · have : w.getLsbD i = false := by
        rw [BitVec.getLsbD, Nat.testBit_eq_false_of_lt]
        exact lt_of_lt_of_le hlt (Nat.pow_le_pow_right (by omega) (by omega))
      simp [this]

end Sys2Proof.Machine
end

