-- ==== Sys2Proof/Laws/PerInstr.lean ====
section
/-! SUPPORT. Statements made for each instruction: the word that issues a host command carries its id in
`CMD[7:0]` (30_encoding R62, R63), and the operations of 30_encoding R64 and R65 have none. -/

namespace Sys2Proof.Laws.OpIds

/-- An operation with a word has its id in the low byte of it and an id of a host command, 0x01 to 0x08; one without a word
has an id HOST cannot issue (30_encoding R60, R62 to R65). -/
def Statement (i : Instr) : Prop :=
  (∀ w, encode i = some w → cmdOp w = i.opId ∧ 1 ≤ i.opId.toNat ∧ i.opId.toNat ≤ 8) ∧
  (encode i = none → 0x10 ≤ i.opId.toNat ∧ i.opId.toNat ≤ 0x2B)

theorem setHpd1 : Statement .setHpd1 := by
  refine ⟨fun w h => ?_, fun h => by cases h⟩
  cases h
  decide

theorem setHpd0 : Statement .setHpd0 := by
  refine ⟨fun w h => ?_, fun h => by cases h⟩
  cases h
  decide

theorem powerOn (fmt : FormatId) : Statement (.powerOn fmt) := by
  refine ⟨fun w h => ?_, fun h => by cases h⟩
  cases h
  revert fmt
  decide

theorem powerOff : Statement .powerOff := by
  refine ⟨fun w h => ?_, fun h => by cases h⟩
  cases h
  decide

theorem suspend : Statement .suspend := by
  refine ⟨fun w h => ?_, fun h => by cases h⟩
  cases h
  decide

theorem resume : Statement .resume := by
  refine ⟨fun w h => ?_, fun h => by cases h⟩
  cases h
  decide

theorem queryConn : Statement .queryConn := by
  refine ⟨fun w h => ?_, fun h => by cases h⟩
  cases h
  decide

theorem queryPower : Statement .queryPower := by
  refine ⟨fun w h => ?_, fun h => by cases h⟩
  cases h
  decide

theorem setAudioRate (rate : SampleRate) : Statement (.setAudioRate rate) := by
  refine ⟨fun w h => ?_, fun h => by cases h⟩
  cases h
  cases rate <;> decide

theorem connIrq : Statement .connIrq := by
  refine ⟨fun w h => (by cases h), fun _ => ?_⟩
  exact ⟨by decide, by decide⟩

theorem hpdTask : Statement .hpdTask := by
  refine ⟨fun w h => (by cases h), fun _ => ?_⟩
  exact ⟨by decide, by decide⟩

theorem powerOffTask : Statement .powerOffTask := by
  refine ⟨fun w h => (by cases h), fun _ => ?_⟩
  exact ⟨by decide, by decide⟩

theorem resolveTiming (fmt : FormatId) (x y f : Word) : Statement (.resolveTiming fmt x y f) := by
  refine ⟨fun w h => (by cases h), fun _ => ?_⟩
  simp [Instr.opId]

theorem timingProg (t : VideoTiming) : Statement (.timingProg t) := by
  refine ⟨fun w h => (by cases h), fun _ => ?_⟩
  simp [Instr.opId]

theorem audioEnable : Statement .audioEnable := by
  refine ⟨fun w h => (by cases h), fun _ => ?_⟩
  exact ⟨by decide, by decide⟩

theorem audioDrain : Statement .audioDrain := by
  refine ⟨fun w h => (by cases h), fun _ => ?_⟩
  exact ⟨by decide, by decide⟩

theorem checksum (bytes : List Byte) : Statement (.checksum bytes) := by
  refine ⟨fun w h => (by cases h), fun _ => ?_⟩
  simp [Instr.opId]

theorem aviEmit (id : FormatId) (scan : BitVec 2) : Statement (.aviEmit id scan) := by
  refine ⟨fun w h => (by cases h), fun _ => ?_⟩
  simp [Instr.opId]

theorem spdEmit : Statement .spdEmit := by
  refine ⟨fun w h => (by cases h), fun _ => ?_⟩
  exact ⟨by decide, by decide⟩

theorem ainfoEmit (ch : ChannelCount) (ls dm : Nat) : Statement (.ainfoEmit ch ls dm) := by
  refine ⟨fun w h => (by cases h), fun _ => ?_⟩
  simp [Instr.opId]

theorem acrCalc (clk : Word) (rate : SampleRate) : Statement (.acrCalc clk rate) := by
  refine ⟨fun w h => (by cases h), fun _ => ?_⟩
  simp [Instr.opId]

theorem acrSetup (clk : Word) (rate : SampleRate) : Statement (.acrSetup clk rate) := by
  refine ⟨fun w h => (by cases h), fun _ => ?_⟩
  simp [Instr.opId]

theorem armSense : Statement .armSense := by
  refine ⟨fun w h => (by cases h), fun _ => ?_⟩
  exact ⟨by decide, by decide⟩

theorem teardown : Statement .teardown := by
  refine ⟨fun w h => (by cases h), fun _ => ?_⟩
  exact ⟨by decide, by decide⟩

end Sys2Proof.Laws.OpIds
end

