-- ==== Sys2Proof/Laws/Steps.lean ====
section
/-! SUPPORT. Everything a step can do, said once: the shared operations as one record update each, and the inversion of a step
into the moves of HOST, IRQ, WORKER and ENV (20_memory R50). -/

namespace Sys2Proof.Machine

/-- `s` after records that write plain registers, and nothing else. -/
def recorded (recs : List Rec) (s : State) : State :=
  { s with tx := replayWrites s.tx recs, trace := s.trace ++ recs }

/-- Two stretches of records one after the other. -/
theorem recorded_append (l m : List Rec) (s : State) : recorded m (recorded l s) = recorded (l ++ m) s := by
  simp [recorded, replayWrites_append]

/-- A list of plain writes is its records. -/
theorem txWrites_recorded (ws : List (TxReg × Word)) (s : State) (h : ws.all plainWrite = true) :
    txWrites ws s = recorded (writeRecords ws) s := by
  rw [txWrites_plain ws s h, recorded, replayWrites_writeRecords]

/-- TIMING_PROG as its records (42_timing R123). -/
theorem timingProg_recorded (t : VideoTiming) (s : State) :
    timingProg t s = recorded (writeRecords (timingWrites t)) s := txWrites_recorded _ _ rfl

/-- AVI_EMIT as its records (44_infoframes R152). -/
theorem aviEmit_recorded (id : FormatId) (scanInfo : BitVec 2) (s : State) :
    aviEmit id scanInfo s = recorded (aviRecords s.cfg id scanInfo) s := by
  unfold aviEmit aviRecords
  cases aviEncode s.cfg id scanInfo
  · simp [emit, recorded, replayWrites]
  · exact txWrites_recorded _ _ rfl

/-- The writes of ACR_SETUP are plain (45_acr R172). -/
theorem acrWrites_plain (r : AcrResult) : (acrWrites r).all plainWrite = true := by
  unfold acrWrites
  cases r.slot <;> rfl

/-- AUDIO_ENABLE as its records (43_audio_drain R136). -/
theorem audioEnable_recorded (s : State) :
    audioEnable s = recorded (audioRecords s.cfg s.ts.pixelClockHz s.ts.audioSampleRate) s := by
  unfold audioEnable audioRecords acrSetup
  cases acrCalc s.cfg s.ts.pixelClockHz s.ts.audioSampleRate with
  | none => simp [emit, recorded, replayWrites]
  | some r =>
    simp only [emit, ainfoEmit]
    rw [txWrites_recorded _ _ rfl, txWrites_recorded _ _ (acrWrites_plain r)]
    simp [recorded, replayWrites_append, replayWrites]

/-- ARM_SENSE as one update (40_hotplug_fsm R84). -/
theorem armSense_update (s : State) :
    armSense s =
      { s with
        tx := { s.tx with hpdIntCtrl := if s.ts.connectionState = .connected then 0x4 else 0x6 }
        intPending := s.intPending || (if s.ts.connectionState = .connected then !s.sense else s.sense)
        trace := s.trace ++ [.regWrite 0x04 (if s.ts.connectionState = .connected then 0x4 else 0x6)] } := by
  cases hc : s.ts.connectionState <;>
    simp [armSense, txWrite, hc, TxRegs.set, TxReg.offset, pendingAfterWrite, latch, intEnBit, polarityBit]

/-- TEARDOWN as one update (40_hotplug_fsm R83). -/
theorem teardown_update (s : State) :
    teardown s =
      { s with
        tx := { s.tx with hpdIntCtrl := 0x0 }
        intPending := false
        hpdTaskPending := false
        wq := s.wq.filter (· ≠ .hpd)
        enabled := { s.enabled with hotplug := false }
        ts := { s.ts with hpdState := .hpdOff }
        trace := s.trace ++ [.regWrite 0x04 0x0, .callDisable .hotplug] } := by
  simp [teardown, txWrite, disableDomain, Enabled.set, TxRegs.set, TxReg.offset]

/-- The commands of HOST, the moves of one step of each: from `s`, whose `busy` and `cmd` the write of CMD may just have set.
The word of the write is not part of it. -/
inductive HostMove (s : State) : Instr → State → Prop where
  | armedAlready : s.ts.hpdState ≠ .hpdOff → HostMove s .setHpd1 (ended 0x01 0 [] s)
  | domainFailed : s.ts.hpdState = .hpdOff → s.draws.enableHotplug = false →
      HostMove s .setHpd1 (ended 0x01 2 [.callEnable .hotplug false] s)
  | armed : s.ts.hpdState = .hpdOff → s.draws.enableHotplug = true →
      HostMove s .setHpd1 (ended 0x01 0
        [.callEnable .hotplug true, .callResetPhysicalLayer, .callInitializePhysicalLayer,
         .regWrite 0x04 0x2, .regWrite 0x04 0x4, .regWrite 0x04 0x6]
        { s with
          enabled := { s.enabled with hotplug := true }
          ts := { s.ts with hpdState := .hpdArmed }
          tx := { s.tx with hpdIntCtrl := 0x6 }
          intPending := true })
  | offAlready : s.ts.hpdState = .hpdOff → HostMove s .setHpd0 (ended 0x01 0 [] s)
  | deferred : s.ts.hpdState ≠ .hpdOff → s.ts.panelPoweredOn = true →
      HostMove s .setHpd0 (ended 0x01 0 [] { s with ts := { s.ts with hotplugOffPending := true } })
  | tornDown : s.ts.hpdState ≠ .hpdOff → s.ts.panelPoweredOn = false →
      HostMove s .setHpd0 (ended 0x01 0 [.regWrite 0x04 0x0, .callDisable .hotplug]
        { s with
          tx := { s.tx with hpdIntCtrl := 0x0 }
          intPending := false
          hpdTaskPending := false
          wq := s.wq.filter (· ≠ .hpd)
          enabled := { s.enabled with hotplug := false }
          ts := { s.ts with hpdState := .hpdOff } })
  | refusedOff (fmt : FormatId) : s.ts.hpdState = .hpdOff → HostMove s (.powerOn fmt) (ended 0x02 1 [] s)
  | refusedOn (fmt : FormatId) : s.ts.panelPoweredOn = true → s.offPending = false →
      HostMove s (.powerOn fmt) (ended 0x02 1 [] s)
  | waits (fmt : FormatId) (a : PowerOnArgs) : s.ts.hpdState ≠ .hpdOff →
      s.ts.panelPoweredOn = false ∨ s.offPending = true →
      HostMove s (.powerOn fmt) { s with spHost := .powerOn .b a }
  | stillWaits (fmt : FormatId) (a : PowerOnArgs) : s.spHost = .powerOn .b a → s.offPending = true →
      HostMove s (.powerOn fmt) s
  | coreFailed (fmt : FormatId) (a : PowerOnArgs) : s.spHost = .powerOn .b a → s.offPending = false →
      s.ts.hpdState ≠ .hpdOff → s.draws.enableCore = false →
      HostMove s (.powerOn fmt) (ended 0x02 2 [.callEnable .core false] s)
  | cecFailed (fmt : FormatId) (a : PowerOnArgs) : s.spHost = .powerOn .b a → s.offPending = false →
      s.ts.hpdState ≠ .hpdOff → s.draws.enableCore = true → s.draws.enableCec = false →
      HostMove s (.powerOn fmt) (ended 0x02 2 [.callEnable .core true, .callEnable .cec false, .callDisable .core]
        { s with enabled := { s.enabled with core := false } })
  | poweredOn (fmt id : FormatId) (a : PowerOnArgs) (t : VideoTiming) (recs : List Rec) :
      s.spHost = .powerOn .b a → s.offPending = false → s.ts.hpdState ≠ .hpdOff →
      s.draws.enableCore = true → s.draws.enableCec = true →
      recs = powerOnRecords s.cfg id t s.ts.audioSampleRate s.sinkInfo s.ts.connectionState →
      (id, t) = resolveTiming s.cfg a.fmt a.xres a.yres a.frameRate →
      HostMove s (.powerOn fmt) (ended 0x02 0 recs
        { s with
          enabled := { s.enabled with core := true, cec := true }
          ts := { s.ts with
            activeFormat := id
            xres := a.xres
            yres := a.yres
            frameRate := a.frameRate
            pixelClockHz := t.pixelFreqKHz * 1000
            panelPoweredOn := true }
          tx := replayWrites s.tx recs
          intPending := s.intPending || (if s.ts.connectionState = .connected then !s.sense else s.sense) })
  | queuedOff : s.ts.panelPoweredOn = true → s.offPending = false →
      HostMove s .powerOff (ended 0x03 0 [] { s with offPending := true, wq := s.wq ++ [.off] })
  | nothingOff : HostMove s .powerOff (ended 0x03 0 [] s)
  | suspended : HostMove s .suspend (ended 0x04 0 [] { s with ts := { s.ts with panelSuspended := true } })
  | resumed : HostMove s .resume (ended 0x05 0 [] { s with ts := { s.ts with panelSuspended := false } })
  | resumeWaits : HostMove s .resume { s with hpdEventSeen := false, spHost := .resume .b }
  | resumeStillWaits : s.spHost = .resume .b → HostMove s .resume s
  | resumeForced : s.ts.connectionState = .disconnected →
      HostMove s .resume (ended 0x05 0 [.connChanged .disconnected] { s with ts := { s.ts with panelSuspended := false } })
  | askedConnection : HostMove s .queryConn (ended 0x06 0 [] { s with rdata := s.ts.connectionState.code.setWidth 32 })
  | askedPower : HostMove s .queryPower (ended 0x07 0 [] { s with rdata := bit s.ts.panelPoweredOn })
  | rateSet (r : SampleRate) :
      HostMove s (.setAudioRate r) (ended 0x08 0 [] { s with ts := { s.ts with audioSampleRate := r } })

/-- The one move of IRQ. -/
inductive IrqMove (s : State) : State → Prop where
  | notEnabled : IrqMove s s
  | spurious : s.intPending = false →
      IrqMove s { s with trace := s.trace ++ [.regRead 0x0C (hpdIntStatusWord s)] }
  | acknowledged : s.intPending = true → s.hpdTaskPending = true →
      IrqMove s
        { s with
          intPending := false
          trace := s.trace ++ [.regRead 0x0C (hpdIntStatusWord s), .regWrite 0x08 0x1] }
  | queued : s.intPending = true → s.hpdTaskPending = false →
      IrqMove s
        { s with
          intPending := false
          hpdTaskPending := true
          wq := s.wq ++ [.hpd]
          trace := s.trace ++ [.regRead 0x0C (hpdIntStatusWord s), .regWrite 0x08 0x1] }

/-- The moves of WORKER. -/
inductive WorkerMove (s : State) : State → Prop where
  | nothingQueued : s.spWorker = .idle → s.wq = [] → WorkerMove s s
  | offGuard (q : List Task) : s.spWorker = .idle → s.wq = .hpd :: q → s.ts.hpdState = .hpdOff →
      WorkerMove s { s with wq := q, hpdTaskPending := false }
  | sameSample (q : List Task) : s.spWorker = .idle → s.wq = .hpd :: q → s.ts.hpdState = sampledState s.sense →
      WorkerMove s
        { s with
          wq := q
          hpdTaskPending := false
          tx := { s.tx with hpdIntCtrl := if s.sense then 0x4 else 0x6 }
          trace := s.trace ++ [.regRead 0x0C (hpdIntStatusWord s), .regWrite 0x04 (if s.sense then 0x4 else 0x6)] }
  | connected (q : List Task) (sink : SinkInfo) (recs : List Rec) : s.spWorker = .idle → s.wq = .hpd :: q →
      s.ts.hpdState = .hpdArmed ∨ s.ts.hpdState = .disconnected → s.sense = true →
      (s.draws.sinkRead = some sink ∧ recs = [.callReadSinkDescriptor (some sink)]) ∨
        (s.draws.sinkRead = none ∧ sink = s.sinkInfo ∧ recs = [.callReadSinkDescriptor none, .report .busTransactionFailure]) →
      WorkerMove s
        { s with
          wq := q
          hpdTaskPending := false
          tx := { s.tx with hpdIntCtrl := 0x4 }
          sinkInfo := sink
          ts := { s.ts with hpdState := .connected, connectionState := .connected }
          hpdEventSeen := true
          trace := s.trace ++ [.regRead 0x0C (hpdIntStatusWord s), .regWrite 0x04 0x4] ++ recs ++ [.connChanged .connected] }
  | disconnected (q : List Task) : s.spWorker = .idle → s.wq = .hpd :: q →
      s.ts.hpdState = .hpdArmed ∨ s.ts.hpdState = .connected → s.sense = false →
      WorkerMove s
        { s with
          wq := q
          hpdTaskPending := false
          tx := { s.tx with hpdIntCtrl := 0x6 }
          ts := { s.ts with hpdState := .disconnected, connectionState := .disconnected }
          hpdEventSeen := true
          trace := s.trace ++ [.regRead 0x0C (hpdIntStatusWord s), .regWrite 0x04 0x6, .connChanged .disconnected] }
  | offStarts (q : List Task) : s.spWorker = .idle ∧ s.wq = .off :: q ∨ s.spWorker = .powerOffTask .p1 ∧ q = s.wq →
      WorkerMove s
        { s with
          wq := q
          drainRound := 1
          drainAttempt := 1
          spWorker := .powerOffTask .p2
          trace := s.trace ++ [.audioChanged false] }
  | drained : s.spWorker = .powerOffTask .p2 → s.draws.engineActive = false →
      WorkerMove s { s with spWorker := .powerOffTask .p3, trace := s.trace ++ [.regRead 0x10 0x0] }
  | nextAttempt : s.spWorker = .powerOffTask .p2 → s.drainAttempt < s.cfg.drainAttempts →
      WorkerMove s { s with drainAttempt := s.drainAttempt + 1, trace := s.trace ++ [.regRead 0x10 0x1] }
  | nextRound : s.spWorker = .powerOffTask .p2 → s.cfg.drainAttempts ≤ s.drainAttempt → s.drainRound < s.cfg.drainRounds →
      WorkerMove s
        { s with
          drainRound := s.drainRound + 1
          drainAttempt := 1
          trace := s.trace ++ [.regRead 0x10 0x1, .audioChanged false] }
  | drainFailed : s.spWorker = .powerOffTask .p2 → s.cfg.drainAttempts ≤ s.drainAttempt → s.cfg.drainRounds ≤ s.drainRound →
      WorkerMove s
        { s with spWorker := .powerOffTask .p3, trace := s.trace ++ [.regRead 0x10 0x1, .report .drainTimeout] }
  | offAndTornDown : s.spWorker = .powerOffTask .p3 → s.ts.hotplugOffPending = true →
      WorkerMove s
        { s with
          tx := { s.tx with ctrl := 0x0, hpdIntCtrl := 0x0 }
          ts := { s.ts with
            pixelClockHz := 0
            panelPoweredOn := false
            hotplugOffPending := false
            hpdState := .hpdOff }
          enabled := ⟨false, false, false⟩
          intPending := false
          hpdTaskPending := false
          wq := s.wq.filter (· ≠ .hpd)
          offPending := false
          spWorker := .idle
          trace := s.trace ++ [.regWrite 0x00 0x0, .callPowerDownPhysicalLayer, .callDisable .core, .callDisable .cec,
            .regWrite 0x04 0x0, .callDisable .hotplug] }
  | offAndRearmed : s.spWorker = .powerOffTask .p3 → s.ts.hotplugOffPending = false →
      WorkerMove s
        { s with
          tx := { s.tx with
            ctrl := 0x0
            hpdIntCtrl := if s.ts.connectionState = .connected then 0x4 else 0x6 }
          ts := { s.ts with pixelClockHz := 0, panelPoweredOn := false }
          enabled := { s.enabled with core := false, cec := false }
          intPending := s.intPending || (if s.ts.connectionState = .connected then !s.sense else s.sense)
          offPending := false
          spWorker := .idle
          trace := s.trace ++ [.regWrite 0x00 0x0, .callPowerDownPhysicalLayer, .callDisable .core, .callDisable .cec,
            .regWrite 0x04 (if s.ts.connectionState = .connected then 0x4 else 0x6)] }

/-- The moves of one step, by the action of its stimulus. -/
inductive Move (s : State) : Action → State → Prop where
  | noStep (a : Action) : Move s a s
  | arg0 (v : Word) : Move s (.hostWrite 0x04 v) { s with arg0 := v }
  | arg1 (v : Word) : Move s (.hostWrite 0x08 v) { s with arg1 := v }
  | arg2 (v : Word) : Move s (.hostWrite 0x0C v) { s with arg2 := v }
  | illegal (w : Word) (why : Illegal) : s.busy = false → decode w = .error why →
      Move s (.hostWrite 0x00 w) (ended (cmdOp w) 6 [] { s with cmd := w, busy := true })
  | issued (w : Word) (i : Instr) (t : State) : s.busy = false → decode w = .ok i →
      HostMove { s with cmd := w, busy := true } i t → Move s (.hostWrite 0x00 w) t
  | powerOnStep (lbl : HostLabel) (a : PowerOnArgs) (t : State) : s.spHost = .powerOn lbl a →
      HostMove s (.powerOn a.fmt) t → Move s .hostStep t
  | resumeStep (lbl : HostLabel) (t : State) : s.spHost = .resume lbl → HostMove s .resume t → Move s .hostStep t
  | irq (t : State) : IrqMove s t → Move s .irq t
  | worker (t : State) : WorkerMove s t → Move s .worker t
  | setSense (level : Bool) :
      Move s (.setSense level)
        { s with sense := level, intPending := latch s.tx.hpdIntCtrl level s.intPending }

/-- SET_HPD 1 makes one of its moves. -/
theorem setHpd1_move (s : State) : HostMove s .setHpd1 (setHpd1 s) := by
  by_cases h : s.ts.hpdState = .hpdOff
  · cases hd : s.draws.enableHotplug
    · convert HostMove.domainFailed h hd using 1
      simp [setHpd1, h, hd, drawEnable, ended, finish, enableDomain, ErrKind.code]
    · convert HostMove.armed h hd using 1
      simp [setHpd1, h, hd, drawEnable, ended, finish, enableDomain, armHotplug, emit, txWrites, txWrite,
        Enabled.set, TxRegs.set, TxReg.offset, pendingAfterWrite]
      exact latch_toggle _ _
  · convert HostMove.armedAlready h using 1
    simp [setHpd1, h, ended, finish]

/-- SET_HPD 0 makes one of its moves. -/
theorem setHpd0_move (s : State) : HostMove s .setHpd0 (setHpd0 s) := by
  by_cases h : s.ts.hpdState = .hpdOff
  · convert HostMove.offAlready h using 1
    simp [setHpd0, h, ended, finish]
  · cases hp : s.ts.panelPoweredOn
    · convert HostMove.tornDown h hp using 1
      simp [setHpd0, h, hp, ended, finish, teardown_update]
    · convert HostMove.deferred h hp using 1
      simp [setHpd0, h, hp, ended, finish]

/-- Step B of a successful POWER_ON as one update (41_power_sequencer R100). -/
theorem bringUp_update (a : PowerOnArgs) (s : State) (id : FormatId) (t : VideoTiming) (recs : List Rec)
    (hc : s.draws.enableCore = true) (he : s.draws.enableCec = true)
    (hr : (id, t) = resolveTiming s.cfg a.fmt a.xres a.yres a.frameRate)
    (hrecs : recs = powerOnRecords s.cfg id t s.ts.audioSampleRate s.sinkInfo s.ts.connectionState) :
    bringUp a (enableDomain .cec (enableDomain .core s)) = ended 0x02 0 recs
      { s with
        enabled := { s.enabled with core := true, cec := true }
        ts := { s.ts with
          activeFormat := id
          xres := a.xres
          yres := a.yres
          frameRate := a.frameRate
          pixelClockHz := t.pixelFreqKHz * 1000
          panelPoweredOn := true }
        tx := replayWrites s.tx recs
        intPending := s.intPending || (if s.ts.connectionState = .connected then !s.sense else s.sense) } := by
  have hup : enableDomain .cec (enableDomain .core s) =
      { s with
        enabled := { s.enabled with core := true, cec := true }
        trace := s.trace ++ [.callEnable .core true, .callEnable .cec true] } := by
    simp [enableDomain, drawEnable, hc, he, Enabled.set]
  have hspd : ∀ p : State, spdEmit p =
      recorded (writeRecords (spdWrites (spdEncode p.cfg.vendorName p.cfg.productDesc p.cfg.spdSourceInfo))) p :=
    fun p => txWrites_recorded _ _ rfl
  have hoff : ∀ p : State, txWrites disableWrites p = recorded (writeRecords disableWrites) p :=
    fun p => txWrites_recorded _ _ rfl
  rw [hup]
  subst hrecs
  simp only [bringUp, emitPackets, programLink, ← hr, commitTiming, hoff, timingProg_recorded, powerOnDone, hspd,
    aviEmit_recorded, audioEnable_recorded, armSense_update, complete, finish, ended]
  cases hb : s.sinkInfo.basicMode <;> cases hcs : s.ts.connectionState <;>
    simp [txWrite, powerOnRecords, hb, recorded, replayWrites, replayWrites_append, disableWrites, writeRecords,
      TxReg.offset, pendingAfterWrite, txReg?, TxRegs.set, ErrKind.code, enableWord]

/-- Step W of POWER_ON makes one of its moves. -/
theorem powerOnW_move (fmt : FormatId) (a : PowerOnArgs) (s : State) : HostMove s (.powerOn fmt) (powerOnW a s) := by
  by_cases h : s.ts.hpdState = .hpdOff
  · convert HostMove.refusedOff fmt h using 1
    simp [powerOnW, h, ended, finish, ErrKind.code]
  · cases hp : s.ts.panelPoweredOn <;> cases ho : s.offPending
    · convert HostMove.waits fmt a h (.inl hp) using 1
      simp [powerOnW, h, alreadyOn, hp]
    · convert HostMove.waits fmt a h (.inl hp) using 1
      simp [powerOnW, h, alreadyOn, hp]
    · convert HostMove.refusedOn fmt hp ho using 1
      simp [powerOnW, h, alreadyOn, hp, ho, ended, finish, ErrKind.code]
    · convert HostMove.waits fmt a h (.inr ho) using 1
      simp [powerOnW, h, alreadyOn, ho]

/-- POWER_ON makes one of its moves. -/
theorem powerOn_move (fmt : FormatId) (s : State) : HostMove s (.powerOn fmt) (powerOn fmt s) := by
  unfold powerOn
  split
  · next a ha =>
    cases ho : s.offPending
    · simp only [Bool.false_eq_true, if_false]
      by_cases h : s.ts.hpdState = .hpdOff
      · convert HostMove.refusedOff fmt h using 1
        simp [powerOnB, h, ended, finish, ErrKind.code]
      · cases hc : s.draws.enableCore
        · convert HostMove.coreFailed fmt a ha ho h hc using 1
          simp [powerOnB, h, drawEnable, hc, ended, finish, ErrKind.code, enableDomain]
        · cases he : s.draws.enableCec
          · convert HostMove.cecFailed fmt a ha ho h hc he using 1
            simp [powerOnB, h, drawEnable, hc, he, ended, finish, ErrKind.code, enableDomain, disableDomain, Enabled.set]
          · convert HostMove.poweredOn fmt _ a _ _ ha ho h hc he rfl rfl using 1
            simp only [powerOnB, h, drawEnable, hc, he, if_false, Bool.not_true, Bool.false_eq_true]
            exact bringUp_update a s _ _ _ hc he rfl rfl
    · simpa using HostMove.stillWaits fmt a ha ho
  · exact powerOnW_move fmt _ s
  · exact powerOnW_move fmt _ s
  · exact powerOnW_move fmt _ s

/-- POWER_OFF makes one of its moves. -/
theorem powerOff_move (s : State) : HostMove s .powerOff (powerOff s) := by
  unfold powerOff
  split
  · next h =>
    convert HostMove.queuedOff h.1 h.2 using 1
    simp [ended, finish]
  · convert HostMove.nothingOff using 1
    simp [ended, finish]

/-- RESUME makes one of its moves. -/
theorem resume_move (s : State) : HostMove s .resume (resume s) := by
  have hdone : finish 0x05 0 { s with ts := { s.ts with panelSuspended := false } } =
      ended 0x05 0 [] { s with ts := { s.ts with panelSuspended := false } } := by
    simp [ended, finish]
  unfold resume
  split
  · next hb =>
    cases hr : resumeReady s
    · simpa using HostMove.resumeStillWaits hb
    · cases hf : resumeForces s
      · convert HostMove.resumed using 1
        simpa [resumeB, hf] using hdone
      · convert HostMove.resumeForced (by simp [resumeForces] at hf; exact hf.2) using 1
        simp [resumeB, hf, ended, finish, emit]
  · unfold resumeW
    split
    · convert HostMove.resumed using 1
      simpa using hdone
    · exact HostMove.resumeWaits

/-- CONN_IRQ makes one of its moves. -/
theorem connIrq_move (s : State) : IrqMove s (if connIrqEnabled s then connIrq s else s) := by
  split
  · unfold connIrq
    rw [statusPending_eq]
    cases hp : s.intPending
    · convert IrqMove.spurious hp using 1
      simp [noteRead_status, emit, txRead]
    · cases ht : s.hpdTaskPending
      · convert IrqMove.queued hp ht using 1
        simp [noteRead_status, emit, scheduleHpdTask, ht, txRead, txWrite, pendingAfterWrite, TxRegs.set,
          TxReg.offset]
      · convert IrqMove.acknowledged hp ht using 1
        simp [noteRead_status, emit, scheduleHpdTask, ht, txRead, txWrite, pendingAfterWrite, TxRegs.set,
          TxReg.offset]
  · exact IrqMove.notEnabled

/-- A sample watched for with the opposite polarity latches nothing (40_hotplug_fsm R86 step T3). -/
theorem latch_watchWord (level pending : Bool) : latch (watchWord (!level)) level pending = pending := by
  cases level <;> cases pending <;> decide

/-- HPD_TASK makes one of WORKER's moves. -/
theorem hpdTask_move (s : State) (q : List Task) (hw : s.spWorker = .idle) (hq : s.wq = .hpd :: q) :
    WorkerMove s (hpdTask s) := by
  by_cases h : s.ts.hpdState = .hpdOff
  · convert WorkerMove.offGuard q hw hq h using 1
    simp [hpdTask, h, hq]
  · by_cases hs : s.ts.hpdState = sampledState s.sense
    · convert WorkerMove.sameSample q hw hq hs using 1
      cases hl : s.sense <;>
        simp_all [hpdTask, hpdTransition, noteRead_status, emit, txRead, txWrite, TxRegs.set, TxReg.offset,
          pendingAfterWrite, hpdIntStatusWord, latch, polarityBit, intEnBit]
    · cases hl : s.sense
      · have hst : s.ts.hpdState = .hpdArmed ∨ s.ts.hpdState = .connected := by
          cases hh : s.ts.hpdState <;> simp_all [sampledState]
        convert WorkerMove.disconnected q hw hq hst hl using 1
        simp_all [hpdTask, hpdTransition, noteRead_status, emit, txRead, txWrite, TxRegs.set, TxReg.offset,
          pendingAfterWrite, hpdIntStatusWord, latch, polarityBit, intEnBit, publishConnection, sampledState,
          sampledConnection]
      · have hst : s.ts.hpdState = .hpdArmed ∨ s.ts.hpdState = .disconnected := by
          cases hh : s.ts.hpdState <;> simp_all [sampledState]
        cases hd : s.draws.sinkRead with
        | none =>
          convert WorkerMove.connected q s.sinkInfo _ hw hq hst hl (.inr ⟨hd, rfl, rfl⟩) using 1
          simp_all [hpdTask, hpdTransition, noteRead_status, emit, txRead, txWrite, TxRegs.set, TxReg.offset,
            pendingAfterWrite, hpdIntStatusWord, latch, polarityBit, intEnBit, publishConnection, sampledState,
            sampledConnection, readSink]
        | some info =>
          convert WorkerMove.connected q info _ hw hq hst hl (.inl ⟨hd, rfl⟩) using 1
          simp_all [hpdTask, hpdTransition, noteRead_status, emit, txRead, txWrite, TxRegs.set, TxReg.offset,
            pendingAfterWrite, hpdIntStatusWord, latch, polarityBit, intEnBit, publishConnection, sampledState,
            sampledConnection, readSink]

/-- One poll of the drain makes one of WORKER's moves. -/
theorem drainPoll_move (s : State) (hw : s.spWorker = .powerOffTask .p2) : WorkerMove s (drainPoll s) := by
  cases ha : s.draws.engineActive
  · convert WorkerMove.drained hw ha using 1
    simp [drainPoll, Machine.drained, ha, noteRead_audioCfg, emit, txRead, audioCfgWord, bit]
  · by_cases h : s.drainAttempt < s.cfg.drainAttempts
    · convert WorkerMove.nextAttempt hw h using 1
      simp [drainPoll, stillActive, ha, h, noteRead_audioCfg, emit, txRead, audioCfgWord, bit]
    · by_cases h' : s.drainRound < s.cfg.drainRounds
      · convert WorkerMove.nextRound hw (by omega) h' using 1
        simp [drainPoll, stillActive, ha, h, h', noteRead_audioCfg, emit, txRead, audioCfgWord, bit]
      · convert WorkerMove.drainFailed hw (by omega) (by omega) using 1
        simp [drainPoll, stillActive, ha, h, h', noteRead_audioCfg, emit, txRead, audioCfgWord, bit,
          Machine.drained]

/-- Step P3 of POWEROFF_TASK makes one of WORKER's moves. -/
theorem powerOffP3_move (s : State) (hw : s.spWorker = .powerOffTask .p3) : WorkerMove s (powerOffP3 s) := by
  cases h : s.ts.hotplugOffPending
  · convert WorkerMove.offAndRearmed hw h using 1
    simp [powerOffP3, settleHotplug, shutDown, h, armSense_update, emit, txWrite, disableDomain, Enabled.set, TxRegs.set,
      TxReg.offset, pendingAfterWrite]
  · convert WorkerMove.offAndTornDown hw h using 1
    simp [powerOffP3, settleHotplug, shutDown, h, teardown_update, emit, txWrite, disableDomain, Enabled.set, TxRegs.set,
      TxReg.offset, pendingAfterWrite]

/-- WORKER makes one of its moves. -/
theorem worker_move (s t : State) (h : workerStep s = .next t) : WorkerMove s t := by
  unfold workerStep at h
  split at h
  · next l hl =>
    cases h
    cases l
    · simp only [powerOffTask, hl]
      exact WorkerMove.offStarts s.wq (.inr ⟨hl, rfl⟩)
    · simp only [powerOffTask, hl]
      exact drainPoll_move s hl
    · simp only [powerOffTask, hl]
      exact powerOffP3_move s hl
  · next hl =>
    split at h
    · next q hq =>
      simp only [exec, execHpdTask, hpdTaskEnabled, hl, hq, List.head?_cons, beq_self_eq_true, Bool.and_self, if_true] at h
      cases h
      exact hpdTask_move s q hl hq
    · next q hq =>
      simp only [exec, execPowerOffTask, powerOffTask, hl, hq, List.head?_cons, if_true, List.tail_cons] at h
      cases h
      exact WorkerMove.offStarts q (.inl ⟨hl, hq⟩)
    · next hq =>
      cases h
      exact WorkerMove.nothingQueued hl hq

/-- A word that decodes names an operation HOST can issue (30_encoding R61). -/
theorem decode_encodes (w : Word) (i : Instr) (h : decode w = .ok i) : (encode i).isSome = true := by
  have hB : decodeB w = .ok i → (encode i).isSome = true := by
    unfold decodeB
    split
    · exact fun h => by cases h
    · split <;> (intro h; cases h; rfl)
  have hP : decodeP w = .ok i → (encode i).isSome = true := by
    unfold decodeP
    split <;> (intro h; cases h; try rfl)
  have hN : ∀ j, (encode j).isSome = true → decodeN w j = .ok i → (encode i).isSome = true := by
    intro j hj
    unfold decodeN
    split <;> (intro h; cases h; try exact hj)
  have hR : decodeR w = .ok i → (encode i).isSome = true := by
    unfold decodeR
    split
    · exact fun h => by cases h
    · split <;> (intro h; cases h; try rfl)
  unfold decode at h
  simp only at h
  repeat' split at h
  all_goals first
    | exact hB h
    | exact hP h
    | exact hR h
    | exact hN _ rfl h
    | cases h

/-- A host command that decodes makes one of HOST's moves. -/
theorem command_move (w : Word) (i : Instr) (s t : State) (hd : decode w = .ok i) (h : exec i s = .next t) :
    HostMove s i t := by
  have hends : ∀ (op : Byte) (p : State), finish op 0 p = ended op 0 [] p := by simp [ended, finish]
  cases i with
  | setHpd1 => cases h; exact setHpd1_move s
  | setHpd0 => cases h; exact setHpd0_move s
  | powerOn fmt => cases h; exact powerOn_move fmt s
  | powerOff => cases h; exact powerOff_move s
  | suspend => cases h; rw [complete_eq_finish, hends]; exact HostMove.suspended
  | resume => cases h; exact resume_move s
  | queryConn => cases h; rw [complete_eq_finish, hends]; exact HostMove.askedConnection
  | queryPower => cases h; rw [complete_eq_finish, hends]; exact HostMove.askedPower
  | setAudioRate r => cases h; rw [complete_eq_finish, hends]; exact HostMove.rateSet r
  | _ =>
    exact absurd (decode_encodes w _ hd) (by simp [encode])

/-- THE INVERSION OF A STEP: from the state it prepares, a step makes one of the moves of the action it takes. -/
theorem step_move (s t : State) (h : step s = .next t) : Move (prepare s) (nextStimulus s).action t := by
  unfold step takeStep at h
  cases ha : (nextStimulus s).action with
  | hostWrite offset v =>
    rw [ha] at h
    simp only [act, hostWrite, hpReg] at h
    split at h
    · next hoff =>
      split at hoff
      · next h0 =>
        subst h0
        unfold writeCmd at h
        split at h
        · cases h; exact Move.noStep _
        · next hb =>
          have hb : (prepare s).busy = false := by simpa using hb
          split at h
          · next i hi => exact Move.issued v i t hb hi (command_move v i _ t hi h)
          · next why hi =>
            cases h
            convert Move.illegal v why hb hi using 1
            simp [illegalCommand, ended, finish, ErrKind.code]
      · repeat' split at hoff
        all_goals cases hoff
    all_goals
      next hoff =>
      repeat' split at hoff
      all_goals first
        | (cases hoff; done)
        | (subst_vars; cases h; first | exact Move.arg0 v | exact Move.arg1 v | exact Move.arg2 v | exact Move.noStep _)
  | hostRead offset => rw [ha] at h; cases h; exact Move.noStep _
  | hostStep =>
    rw [ha] at h
    simp only [act, hostStep] at h
    split at h
    · cases h; exact Move.noStep _
    · next lbl a hp => cases h; exact Move.powerOnStep lbl a _ hp (powerOn_move a.fmt _)
    · next lbl hp => cases h; exact Move.resumeStep lbl _ hp (resume_move _)
  | irq => rw [ha] at h; cases h; exact Move.irq _ (connIrq_move _)
  | worker => rw [ha] at h; exact Move.worker t (worker_move _ t h)
  | setSense level => rw [ha] at h; cases h; exact Move.setSense level

end Sys2Proof.Machine
end

