-- ==== Sys2Proof/Laws/Records.lean ====
section
/-! SUPPORT. What stands in the records a step adds: the records of lists of writes, of AUDIO_ENABLE, AVI_EMIT and POWER_ON,
and that no rule's word sets a reserved bit. -/

namespace Sys2Proof.Machine

/-- The words of TIMING_PROG set no reserved bit (42_timing R123). -/
theorem timingWrites_reserved (t : VideoTiming) : ∀ w ∈ timingWrites t, w.2 &&& ~~~w.1.mask = 0 := by
  have h12 : ∀ a b : BitVec 12, pack12 a b &&& ~~~(0x0FFF0FFF : Word) = 0 := by
    intro a b
    unfold pack12
    apply BitVec.eq_of_getLsbD_eq
    intro i hi
    have : ∀ j, j < 32 → (0x0FFF0FFF : Word).getLsbD j = (decide (j < 12) || (decide (16 ≤ j) && decide (j < 28))) := by decide
    simp only [BitVec.getLsbD_and, BitVec.getLsbD_not, BitVec.getLsbD_or, BitVec.getLsbD_shiftLeft,
      BitVec.getLsbD_setWidth, this i hi]
    by_cases h1 : i < 12
    · simp [h1]
    · by_cases h2 : 16 ≤ i ∧ i < 28
      · simp [h2]
      · have hb : b.getLsbD i = false := BitVec.getLsbD_of_ge _ _ (by omega)
        have ha : 16 ≤ i → a.getLsbD (i - 16) = false := fun _ => BitVec.getLsbD_of_ge _ _ (by omega)
        by_cases h3 : i < 16
        · simp [hb, h3]
        · simp [hb, ha (by omega)]
  have h0 : ∀ b : BitVec 12, pack12 0 b &&& ~~~(0x00000FFF : Word) = 0 := by
    intro b
    have hp : pack12 0 b = b.setWidth 32 := by simp [pack12]
    rw [hp]
    have := (BitVec.toNat_setWidth 32 b)
    have hb := b.isLt
    apply BitVec.eq_of_getLsbD_eq
    intro i hi
    have : ∀ j, j < 32 → (0x00000FFF : Word).getLsbD j = decide (j < 12) := by decide
    simp only [BitVec.getLsbD_and, BitVec.getLsbD_not, BitVec.getLsbD_setWidth, this i hi]
    by_cases h1 : i < 12
    · simp [h1]
    · simp [BitVec.getLsbD_of_ge b i (by omega)]
  intro w hw
  simp only [timingWrites, List.mem_cons, List.not_mem_nil, or_false] at hw
  rcases hw with rfl | rfl | rfl | rfl | rfl | rfl
  · exact h12 _ _
  · exact h12 _ _
  · exact h12 _ _
  · dsimp only
    split
    · exact h0 _
    · rfl
  · dsimp only
    split
    · exact h12 _ _
    · rfl
  · show frameCtrlWord t &&& ~~~(0xB0000000 : Word) = 0
    unfold frameCtrlWord
    cases t.interlaced <;> cases t.activeLowV <;> cases t.activeLowH <;> decide

/-- Two bytes in the low half of a word. -/
theorem pack4_low (a b : Byte) : pack4 a b 0 0 &&& ~~~(0x0000FFFF : Word) = 0 := by
  refine (maskedOff_iff _ 16 (by omega)).2 ?_
  have := a.isLt
  have := b.isLt
  rw [pack4_toNat]
  simp
  omega

/-- The words of AVI_EMIT set no reserved bit (44_infoframes R151, R152). -/
theorem aviWrites_reserved (c : Config) (row : AviRow) (scan : BitVec 2) :
    ∀ w ∈ aviWrites (aviWords c row scan), w.2 &&& ~~~w.1.mask = 0 := by
  have hfull : ∀ v : Word, v &&& ~~~(0xFFFFFFFF : Word) = 0 := by simp
  have h3 : ∀ a b : Byte, pack4 a b 0 c.aviVersion &&& ~~~(0xFF00FFFF : Word) = 0 := by
    intro a b
    unfold pack4
    apply BitVec.eq_of_getLsbD_eq
    intro i hi
    have : ∀ j, j < 32 → (0xFF00FFFF : Word).getLsbD j = (decide (j < 16) || decide (24 ≤ j)) := by decide
    simp only [BitVec.getLsbD_and, BitVec.getLsbD_not, BitVec.getLsbD_or, BitVec.getLsbD_shiftLeft,
      BitVec.getLsbD_setWidth, this i hi]
    by_cases h1 : i < 16
    · simp [h1]
    · by_cases h2 : 24 ≤ i
      · simp [h2]
      · simp [h2, BitVec.getLsbD_of_ge a i (by omega), BitVec.getLsbD_of_ge b (i - 8) (by omega),
          show i < 24 by omega]
  intro w hw
  simp only [aviWrites, aviWords, List.mem_cons, List.not_mem_nil, or_false] at hw
  rcases hw with rfl | rfl | rfl | rfl | rfl
  · exact hfull _
  · exact hfull _
  · exact hfull _
  · exact h3 _ _
  · exact (by decide : (1 : Word) &&& ~~~(0x00000001 : Word) = 0)

/-- The words of SPD_EMIT set no reserved bit (44_infoframes R153, R154). -/
theorem spdWrites_reserved (vendor : Vector Byte 8) (product : Vector Byte 16) (info : Byte) :
    ∀ w ∈ spdWrites (spdEncode vendor product info), w.2 &&& ~~~w.1.mask = 0 := by
  have hfull : ∀ v : Word, v &&& ~~~(0xFFFFFFFF : Word) = 0 := by simp
  intro w hw
  simp only [spdWrites, spdEncode, List.mem_cons, List.not_mem_nil, or_false] at hw
  rcases hw with rfl | rfl | rfl | rfl | rfl | rfl | rfl | rfl | rfl
  · exact (by decide : spdHeader &&& ~~~(0x00FFFFFF : Word) = 0)
  · exact hfull _
  · exact hfull _
  · exact hfull _
  · exact hfull _
  · exact hfull _
  · exact pack4_low _ _
  · exact hfull _
  · exact (by decide : (1 : Word) &&& ~~~(0x00000001 : Word) = 0)

/-- The words of AINFO_EMIT set no reserved bit (44_infoframes R155, R156). -/
theorem ainfoWrites_reserved (codes : ChannelCodes) (levelShift downMix : Nat) :
    ∀ w ∈ ainfoWrites (ainfoEncode codes levelShift downMix), w.2 &&& ~~~w.1.mask = 0 := by
  have hfull : ∀ v : Word, v &&& ~~~(0xFFFFFFFF : Word) = 0 := by simp
  intro w hw
  simp only [ainfoWrites, ainfoEncode, List.mem_cons, List.not_mem_nil, or_false] at hw
  rcases hw with rfl | rfl | rfl
  · exact hfull _
  · exact pack4_low _ _
  · exact (by decide : (1 : Word) &&& ~~~(0x00000001 : Word) = 0)

/-- The words of ACR_SETUP set no reserved bit (45_acr R172). -/
theorem acrWrites_reserved (r : AcrResult) : ∀ w ∈ acrWrites r, w.2 &&& ~~~w.1.mask = 0 := by
  have hfull : ∀ v : Word, v &&& ~~~(0xFFFFFFFF : Word) = 0 := by simp
  intro w hw
  simp only [acrWrites, List.mem_cons, List.not_mem_nil, or_false] at hw
  rcases hw with rfl | rfl | rfl
  · cases r.slot <;> exact hfull _
  · cases r.slot <;> exact hfull _
  · show acrControl r &&& ~~~(0x00030031 : Word) = 0
    unfold acrControl
    cases r.slot <;> cases r.mult <;> decide

/-- A record that POWER_ON's packet and timing steps can add: a write of a TX register that sets no
reserved bit, a report of an unsupported format, or the
audio-active signal (41_power_sequencer R100 steps B5 to B11). -/
inductive LinkRecord : Rec → Prop where
  | write (r : TxReg) (v : Word) (h : v &&& ~~~r.mask = 0) : LinkRecord (.regWrite r.offset v)
  | unsupported : LinkRecord (.report .unsupportedFormat)
  | audioOn : LinkRecord (.audioChanged true)

/-- The records of a list of writes are writes of registers. -/
theorem writeRecords_link (ws : List (TxReg × Word)) (h : ∀ w ∈ ws, w.2 &&& ~~~w.1.mask = 0) :
    ∀ r ∈ writeRecords ws, LinkRecord r := by
  intro r hr
  simp only [writeRecords, List.mem_map] at hr
  obtain ⟨w, hw, rfl⟩ := hr
  exact .write w.1 w.2 (h w hw)

/-- The records of AUDIO_ENABLE (43_audio_drain R136). -/
theorem audioRecords_link (c : Config) (clk : Word) (rate : SampleRate) : ∀ r ∈ audioRecords c clk rate, LinkRecord r := by
  intro r hr
  unfold audioRecords at hr
  split at hr
  · rw [List.mem_singleton.1 hr]
    exact .unsupported
  · rcases List.mem_append.1 hr with hr | hr
    · rcases List.mem_append.1 hr with hr | hr
      · exact writeRecords_link _ (acrWrites_reserved _) r hr
      · exact writeRecords_link _ (ainfoWrites_reserved _ _ _) r hr
    · rw [List.mem_singleton.1 hr]
      exact .audioOn

/-- The records of AVI_EMIT (44_infoframes R152). -/
theorem aviRecords_link (c : Config) (id : FormatId) (scan : BitVec 2) : ∀ r ∈ aviRecords c id scan, LinkRecord r := by
  intro r hr
  unfold aviRecords aviEncode at hr
  cases hrow : c.avi? id with
  | none =>
    simp only [hrow, Option.map_none, List.mem_singleton] at hr
    exact hr ▸ .unsupported
  | some row =>
    simp only [hrow, Option.map_some] at hr
    exact writeRecords_link _ (aviWrites_reserved c row scan) r hr

/-- The records of a successful POWER_ON are the two enables, then link records (41_power_sequencer R100). -/
theorem powerOnRecords_link (c : Config) (id : FormatId) (t : VideoTiming) (rate : SampleRate) (sink : SinkInfo)
    (connection : Connection) :
    ∃ l, powerOnRecords c id t rate sink connection = [.callEnable .core true, .callEnable .cec true] ++ l ∧
      ∀ r ∈ l, LinkRecord r := by
  refine ⟨_, by unfold powerOnRecords; simp only [List.cons_append, List.nil_append]; rfl, ?_⟩
  intro r hr
  simp only [List.cons_append, List.nil_append, List.append_assoc, List.mem_cons, List.mem_append] at hr
  have w : ∀ (q : TxReg) (v : Word) (n : Nat), q.offset = n → v &&& ~~~q.mask = 0 → LinkRecord (.regWrite n v) :=
    fun q v n h hv => h ▸ .write q v hv
  rcases hr with rfl | rfl | rfl | rfl | rfl | hr | rfl | hr | hr | hr | rfl | hr
  · exact w .ctrl _ _ rfl (by decide)
  · exact w .aviCtrl _ _ rfl (by decide)
  · exact w .spdCtrl _ _ rfl (by decide)
  · exact w .audioInfoCtrl _ _ rfl (by decide)
  · exact w .acrPktCtrl _ _ rfl (by decide)
  · exact writeRecords_link _ (timingWrites_reserved t) r hr
  · exact w .ctrl _ _ rfl (by cases sink.basicMode <;> decide)
  · split at hr
    · cases hr
    · exact audioRecords_link _ _ _ r hr
  · exact aviRecords_link _ _ _ r hr
  · exact writeRecords_link _ (spdWrites_reserved _ _ _) r hr
  · exact w .hpdIntCtrl _ _ rfl (by cases connection <;> decide)
  · cases hr

/-- Link records name no power domain. -/
theorem replayDomain_link (d : Domain) (on : Bool) (l : List Rec) (h : ∀ r ∈ l, LinkRecord r) :
    replayDomain d on l = some on := by
  induction l with
  | nil => rfl
  | cons r l ih =>
    have hr := h r (by simp)
    have hl := ih fun q hq => h q (by simp [hq])
    cases hr <;> simpa [replayDomain] using hl

/-- What the calls of a successful POWER_ON say of each domain, from the flags of a panel that is off. -/
theorem replayDomain_powerOn (d : Domain) (e : Enabled) (hc : e.core = false) (hx : e.cec = false) (c : Config)
    (id : FormatId) (t : VideoTiming) (rate : SampleRate) (sink : SinkInfo) (connection : Connection) :
    replayDomain d (e.get d) (powerOnRecords c id t rate sink connection) =
      some (({ e with core := true, cec := true } : Enabled).get d) := by
  obtain ⟨l, hl, hlink⟩ := powerOnRecords_link c id t rate sink connection
  rw [hl]
  cases d <;> simp [replayDomain, Enabled.get, hc, hx, replayDomain_link _ _ l hlink]

/-- Link records keep every reserved bit 0. -/
theorem reservedZero_link (l : List Rec) (h : ∀ r ∈ l, LinkRecord r) {t : TxRegs} (ht : reservedZero t) :
    reservedZero (replayWrites t l) := by
  induction l generalizing t with
  | nil => exact ht
  | cons r l ih =>
    have hr := h r (by simp)
    have hl := fun q hq => h q (List.mem_cons_of_mem r hq)
    cases hr with
    | write r v hv =>
      simp only [replayWrites, txReg?_offset]
      exact ih hl (reservedZero_set ht hv)
    | unsupported => exact ih hl ht
    | audioOn => exact ih hl ht

/-- A successful POWER_ON leaves HPD_INT_CTRL as ARM_SENSE wrote it, its last write (41_power_sequencer R100 step B11). -/
theorem powerOnRecords_hpdIntCtrl (tx : TxRegs) (c : Config) (id : FormatId) (t : VideoTiming) (rate : SampleRate)
    (sink : SinkInfo) (connection : Connection) :
    (replayWrites tx (powerOnRecords c id t rate sink connection)).hpdIntCtrl =
      if connection = .connected then 0x4 else 0x6 := by
  unfold powerOnRecords
  rw [replayWrites_append]
  generalize replayWrites tx _ = u
  simp [replayWrites, txReg?, TxReg.offset, TxRegs.set]

end Sys2Proof.Machine
end

