-- ==== Sys2Proof/Tests/Slice0.lean ====
section
/-! SUPPORT. The model's own tests: small facts whose expected values are the spec's worked examples and vectors, each test one
operation on a small state, and for each obligation with hypotheses a witness that meets them. -/

namespace Sys2Proof.Machine.Tests

/-! ## Small states -/

/-- Every call answers Ok, the sink is `{basicMode = false, scanInfo = 2}`, the audio engine is inactive (95 program P1). -/
def answers : Draws := ⟨true, true, true, some ⟨false, 2⟩, false, false⟩

/-- Reset, with the line high (95 program P1). -/
def start : State := { State.reset with sense := true, draws := answers }

/-- HPD_ARMED, an interrupt pending. -/
def armed : State :=
  { start with
    ts := { start.ts with hpdState := .hpdArmed }
    enabled := ⟨true, false, false⟩
    tx := { start.tx with hpdIntCtrl := 0x6 }
    intPending := true }

/-- HPD_ARMED, HPD_TASK queued. -/
def queued : State := { armed with intPending := false, hpdTaskPending := true, wq := [.hpd] }

/-- CONNECTED, not powered (95 program P1 after line 3). -/
def plugged : State :=
  { start with
    ts := { start.ts with hpdState := .connected, connectionState := .connected }
    enabled := ⟨true, false, false⟩
    tx := { start.tx with hpdIntCtrl := 0x4 }
    sinkInfo := ⟨false, 2⟩
    hpdEventSeen := true }

/-- The link up in format 16 (95 program P1 after line 4). -/
def up : State :=
  { plugged with
    ts := { plugged.ts with panelPoweredOn := true, activeFormat := 16, pixelClockHz := 148500000 }
    enabled := ⟨true, true, true⟩
    tx := { plugged.tx with ctrl := 0x3 } }

/-- The power-off task in flight at a step, with its counters. -/
def downing (lbl : TaskLabel) (round attempt : Nat) : State :=
  { up with offPending := true, spWorker := .powerOffTask lbl, drainRound := round, drainAttempt := attempt }

/-- Step P3 about to run with a hot-plug disable deferred. -/
def deferred : State := { downing .p3 1 1 with ts := { up.ts with hotplugOffPending := true } }

/-- The audio engine active at the next poll. -/
def busyAudio (s : State) : State := { s with draws := { s.draws with engineActive := true } }

/-- HOST waits for step B of a POWER_ON of this format. -/
def waiting (fmt : FormatId) (s : State) : State := { s with busy := true, spHost := .powerOn .b ⟨fmt, 0, 0, 0⟩ }

/-- `s` with this move next. -/
def next (a : Action) (s : State) : State := { s with agenda := [⟨a, s.draws⟩] }

/-- The state an outcome carries. -/
def after : Outcome → Option State
  | .next s => some s
  | .fault _ => none
  | .refused _ => none

/-- The state after a step. -/
def stepped (s : State) : State := (after (step s)).getD s

/-- The trace after an operation. -/
def traceOf (i : Instr) (s : State) : Option (List Rec) := (after (exec i s)).map (·.trace)

/-- What an internal function returned. -/
def returned (i : Instr) (s : State) : Option Ret := (after (exec i s)).map (·.ret)

/-! ## Well-formedness -/

/-- Row 16 of the reference table. -/
def row16 : VideoTiming := ⟨1920, 88, 44, 148, 1080, 4, 5, 36, 148500, false, false, false⟩

/-- Row 5 of the reference table. -/
def row5 : VideoTiming := ⟨1920, 88, 44, 148, 540, 2, 5, 15, 74250, true, false, false⟩

/-- No horizontal extent: R122 makes it illegal. -/
def flatRow : VideoTiming := { row16 with activeH := 0, frontPorchH := 0, pulseWidthH := 0, backPorchH := 0 }

/-- No vertical extent: R122 makes it illegal. -/
def emptyRow : VideoTiming := { row16 with activeV := 0, frontPorchV := 0, pulseWidthV := 0, backPorchV := 0 }

/-- No vertical blanking before the active lines: R122 makes it illegal. -/
def earlyRow : VideoTiming := { row16 with pulseWidthV := 0, backPorchV := 0 }

theorem test_wf_row : (Instr.timingProg row16).wellFormed = true := by decide
theorem test_wf_totalH : flatRow.totalHOk = false ∧ (Instr.timingProg flatRow).wellFormed = false := by decide
theorem test_wf_totalV : emptyRow.totalVOk = false ∧ (Instr.timingProg emptyRow).wellFormed = false := by decide
theorem test_wf_startV :
    earlyRow.totalVOk = true ∧ earlyRow.startVOk = false ∧ (Instr.timingProg earlyRow).wellFormed = false := by decide

theorem test_wf_reference : Config.reference.wf = true ∧ Config.reference.acrMultiplesOk = true := by decide
theorem test_wf_fixed_values :
    Config.reference.fixedOk = true ∧ ({ Config.reference with drainRounds := 16 } : Config).fixedOk = false ∧
    ({ Config.reference with aviLength := 12 } : Config).fixedOk = false := by decide
theorem test_wf_key_zero :
    ({ Config.reference with timingTable := (0, row16) :: Config.reference.timingTable } : Config).timingTableOk = false := by
  decide
theorem test_wf_duplicate_key :
    ({ Config.reference with timingTable := (16, row5) :: Config.reference.timingTable } : Config).timingTableOk = false := by
  decide
theorem test_wf_illegal_row :
    ({ Config.reference with timingTable := (99, earlyRow) :: Config.reference.timingTable } : Config).wf = false := by decide
theorem test_wf_default_supported : ({ Config.reference with defaultFormat := 3 } : Config).lookupTotal = false := by decide
theorem test_wf_geometry_supported :
    ({ Config.reference with geometryTable := [⟨640, 480, 60, 3⟩] } : Config).lookupTotal = false := by decide
theorem test_wf_duplicate_clock :
    ({ Config.reference with acrTable := referenceAcr 25200000 1 1 1 6144 :: Config.reference.acrTable } : Config).keysUnique
      = false := by decide
theorem test_wf_odd_n :
    ({ Config.reference with acrTable := [⟨1, ⟨0, 0⟩, ⟨0, 0⟩, ⟨0, 0⟩, ⟨0, 0⟩, ⟨6145, 0⟩, ⟨0, 0⟩, ⟨0, 0⟩⟩] } : Config).acrMultiplesOk
      = false := by decide

/-! ## Decoding: words of 95 section 2.7, written out from the formats of 30_encoding R62 -/

theorem test_decode_set_hpd : decode 0x00000101 = .ok .setHpd1 ∧ decode 0x00000001 = .ok .setHpd0 := by decide
theorem test_decode_power_on :
    decode 0x00001002 = .ok (.powerOn 16) ∧ decode 0x00000002 = .ok (.powerOn 0) ∧ decode 0x0000FF02 = .ok (.powerOn 255) := by
  decide
theorem test_decode_power_off : decode 0x00000003 = .ok .powerOff := by decide
theorem test_decode_suspend_resume : decode 0x00000004 = .ok .suspend ∧ decode 0x00000005 = .ok .resume := by decide
theorem test_decode_queries : decode 0x00000006 = .ok .queryConn ∧ decode 0x00000007 = .ok .queryPower := by decide
theorem test_decode_set_audio_rate :
    decode 0x00000008 = .ok (.setAudioRate .r32k) ∧ decode 0x00000408 = .ok (.setAudioRate .r96k) ∧
    decode 0x00000608 = .ok (.setAudioRate .r192k) := by decide
theorem test_decode_bits_that_must_be_zero :
    decode 0x00000201 = .error .mustBeZero ∧ decode 0x00010002 = .error .mustBeZero ∧
    decode 0x00000103 = .error .mustBeZero ∧ decode 0x00000808 = .error .mustBeZero := by decide
theorem test_decode_rate_seven : decode 0x00000708 = .error .rateSeven := by decide
theorem test_decode_reserved_ids :
    decode 0x00000000 = .error .reservedId ∧ decode 0x00000009 = .error .reservedId ∧
    decode 0xFFFFFFFF = .error .reservedId ∧ decode 0x0000002C = .error .reservedId := by decide
theorem test_decode_ids_of_other_agents :
    decode 0x00000010 = .error .notHostId ∧ decode 0x00000011 = .error .notHostId ∧
    decode 0x00000012 = .error .notHostId ∧ decode 0x00000025 = .error .notHostId ∧
    decode 0x0000002B = .error .notHostId := by decide
theorem test_decode_table_word : decodeTableWord 32 0x1002 = some (.powerOn 16) ∧ decodeTableWord 32 0x708 = none := by decide
theorem test_fetch_word_runs : (after (step (State.reset.withFetchWord 32 0x408))).map (·.ts.audioSampleRate) = some .r96k := by
  decide

/-- 95 section 2.7: an illegal word ends with ERR = 6 and its id in the trace. -/
theorem test_illegal_word :
    (stepped (next (.hostWrite 0x00 0x708) start)).err = 6 ∧
    (stepped (next (.hostWrite 0x00 0x708) start)).trace = [.done 0x08 6] := by decide

/-! ## The hot-plug family -/

/-- The example of 40_hotplug_fsm R81. -/
theorem test_set_hpd1_arms :
    traceOf .setHpd1 start = some
      [.callEnable .hotplug true, .callResetPhysicalLayer, .callInitializePhysicalLayer,
       .regWrite 0x04 0x2, .regWrite 0x04 0x4, .regWrite 0x04 0x6, .done 0x01 0] ∧
    (after (exec .setHpd1 start)).map (fun t => (t.ts.hpdState, t.intPending)) = some (.hpdArmed, true) := by decide

/-- 95 program P3 line 2. -/
theorem test_set_hpd1_domain_fails :
    traceOf .setHpd1 { start with draws := { answers with enableHotplug := false } } = some
      [.callEnable .hotplug false, .done 0x01 2] := by decide

/-- The example of 40_hotplug_fsm R82. -/
theorem test_set_hpd0_defers :
    (after (exec .setHpd0 up)).map (fun t => (t.ts.hotplugOffPending, t.ts.hpdState, t.trace))
      = some (true, .connected, [.done 0x01 0]) := by decide

/-- 95 section 2.8, SET_HPD, row 5. -/
theorem test_set_hpd0_tears_down :
    (after (exec .setHpd0 { queued with intPending := true, ts := { queued.ts with hpdState := .disconnected } })).map
        (fun t => (t.trace, t.ts.hpdState, t.wq, t.intPending, t.hpdTaskPending))
      = some ([.regWrite 0x04 0x0, .callDisable .hotplug, .done 0x01 0], .hpdOff, [], false, false) := by decide

/-- The example of 40_hotplug_fsm R83. -/
theorem test_teardown : traceOf .teardown queued = some [.regWrite 0x04 0x0, .callDisable .hotplug] := by decide

/-- The example of 40_hotplug_fsm R84. -/
theorem test_arm_sense : traceOf .armSense up = some [.regWrite 0x04 0x4] := by decide

/-- The example of 40_hotplug_fsm R85. -/
theorem test_conn_irq :
    (after (exec .connIrq armed)).map (fun t => (t.trace, t.wq, t.intPending))
      = some ([.regRead 0x0C 0x3, .regWrite 0x08 0x1], [.hpd], false) := by decide

/-- 95 section 2.8, coalescing. -/
theorem test_conn_irq_coalesces :
    (after (exec .connIrq { queued with intPending := true })).map (fun t => (t.trace, t.wq))
      = some ([.regRead 0x0C 0x3, .regWrite 0x08 0x1], [.hpd]) := by decide

/-- The example of 40_hotplug_fsm R86. -/
theorem test_hpd_task_publishes :
    traceOf .hpdTask queued = some
      [.regRead 0x0C 0x2, .regWrite 0x04 0x4, .callReadSinkDescriptor (some ⟨false, 2⟩), .connChanged .connected] := by decide

/-- 95 section 2.8, HPD_TASK, last row. -/
theorem test_hpd_task_same_sample :
    traceOf .hpdTask { plugged with wq := [.hpd], hpdTaskPending := true } = some [.regRead 0x0C 0x2, .regWrite 0x04 0x4] := by
  decide

/-- The example of 40_hotplug_fsm R88. -/
theorem test_suspend : (after (exec .suspend plugged)).map (fun t => t.ts.panelSuspended) = some true := by decide

/-- The example of 40_hotplug_fsm R89. -/
theorem test_resume_timeout :
    traceOf .resume
      { armed with
        spHost := .resume .b
        draws := { answers with resumeTimeout := true }
        ts := { armed.ts with hpdState := .disconnected, panelSuspended := true } }
      = some [.connChanged .disconnected, .done 0x05 0] := by decide

/-- 95 section 2.8, SUSPEND / RESUME, row 1. -/
theorem test_resume_at_once : traceOf .resume plugged = some [.done 0x05 0] := by decide

/-- The examples of 40_hotplug_fsm R90 and R91. -/
theorem test_query_conn : (after (exec .queryConn plugged)).map (·.rdata) = some 1 := by decide
theorem test_query_power : (after (exec .queryPower up)).map (·.rdata) = some 1 := by decide

/-! ## The power sequencer -/

/-- 95 program P1 line 4. -/
theorem test_power_on_trace :
    traceOf (.powerOn 16) (waiting 16 plugged) = some
      [.callEnable .core true, .callEnable .cec true,
       .regWrite 0x00 0x0, .regWrite 0x2C 0x0, .regWrite 0x40 0x0, .regWrite 0x64 0x0, .regWrite 0x70 0x0,
       .regWrite 0x14 0x4640897, .regWrite 0x18 0x84000C0, .regWrite 0x1C 0x4600028, .regWrite 0x20 0x0,
       .regWrite 0x24 0x0, .regWrite 0x28 0x0, .regWrite 0x00 0x3,
       .regWrite 0x84 0x24414000, .regWrite 0x88 0x6000, .regWrite 0x70 0x31,
       .regWrite 0x68 0x170, .regWrite 0x6C 0x0, .regWrite 0x64 0x1, .audioChanged true,
       .regWrite 0x30 0x281225, .regWrite 0x34 0x10, .regWrite 0x38 0x0, .regWrite 0x3C 0x2000000, .regWrite 0x2C 0x1,
       .regWrite 0x44 0x190183, .regWrite 0x4C 0x4D4F434C, .regWrite 0x50 0x4D44484D, .regWrite 0x54 0x58542049,
       .regWrite 0x58 0x474E4520, .regWrite 0x5C 0x454E49, .regWrite 0x60 0x0, .regWrite 0x48 0x41555140,
       .regWrite 0x40 0x1, .regWrite 0x04 0x4, .done 0x02 0] := by decide

/-- 95 program P3 line 6. -/
theorem test_power_on_rolls_back :
    (after (exec (.powerOn 99) (waiting 99 { plugged with draws := { answers with enableCec := false } }))).map
        (fun t => (t.trace, t.enabled, t.ts.panelPoweredOn))
      = some ([.callEnable .core true, .callEnable .cec false, .callDisable .core, .done 0x02 2], ⟨true, false, false⟩, false) := by
  decide

/-- The example of 41_power_sequencer R101. -/
theorem test_power_off :
    (after (exec .powerOff up)).map (fun t => (t.offPending, t.wq, t.trace, t.ts.panelPoweredOn))
      = some (true, [.off], [.done 0x03 0], true) := by decide

/-- 95 section 2.9: a second POWER_OFF queues nothing. -/
theorem test_power_off_twice : (after (exec .powerOff { up with offPending := true, wq := [.off] })).map (·.wq) = some [.off] := by
  decide

/-- The example of 41_power_sequencer R102, its last step. -/
theorem test_power_off_task_shuts_down :
    traceOf .powerOffTask (downing .p3 1 1) = some
      [.regWrite 0x00 0x0, .callPowerDownPhysicalLayer, .callDisable .core, .callDisable .cec, .regWrite 0x04 0x4] := by decide

/-- 95 program P2 line 6, its last step: the deferred disable. -/
theorem test_power_off_task_disables_hotplug :
    traceOf .powerOffTask deferred = some
      [.regWrite 0x00 0x0, .callPowerDownPhysicalLayer, .callDisable .core, .callDisable .cec, .regWrite 0x04 0x0,
       .callDisable .hotplug] := by decide

/-- The example of 41_power_sequencer R103. -/
theorem test_set_audio_rate : (after (exec (.setAudioRate .r96k) start)).map (·.ts.audioSampleRate) = some .r96k := by decide

/-- The example of 43_audio_drain R135: poll 500 opens round 2. -/
theorem test_drain_next_round :
    (after (exec .audioDrain (busyAudio (downing .p2 1 500)))).map (fun t => (t.drainRound, t.drainAttempt, t.trace))
      = some (2, 1, [.regRead 0x10 0x1, .audioChanged false]) := by decide

/-- 95 program P3 line 17: the 7500th poll. -/
theorem test_drain_timeout :
    (after (exec .audioDrain (busyAudio (downing .p2 15 500)))).map (fun t => (t.spWorker, t.trace))
      = some (.powerOffTask .p3, [.regRead 0x10 0x1, .report .drainTimeout]) := by decide

/-- The example of 41_power_sequencer R102, as a WORKER line without a label runs it. -/
theorem test_worker_line_completes :
    (after ((ScriptLine.worker none).run (List.replicate 4 answers) { up with offPending := true, wq := [.off] })).map
        (fun t => (t.trace, t.spWorker))
      = some ([.audioChanged false, .regRead 0x10 0x0, .regWrite 0x00 0x0, .callPowerDownPhysicalLayer, .callDisable .core,
          .callDisable .cec, .regWrite 0x04 0x4], .idle) := by decide

/-! ## Timing -/

/-- 95 section 2.5. -/
theorem test_resolve_timing_geometry :
    returned (.resolveTiming 0 720 576 50) start = some (.timing 17 ⟨720, 12, 64, 68, 576, 5, 5, 39, 27000, false, true, true⟩) := by
  decide
theorem test_resolve_timing_default : returned (.resolveTiming 99 800 600 60) start = some (.timing 16 row16) := by decide
theorem test_timing_prog_progressive :
    traceOf (.timingProg row16) start = some
      [.regWrite 0x14 0x04640897, .regWrite 0x18 0x084000C0, .regWrite 0x1C 0x04600028, .regWrite 0x20 0x0,
       .regWrite 0x24 0x0, .regWrite 0x28 0x0] := by decide
theorem test_timing_prog_interlaced :
    traceOf (.timingProg row5) start = some
      [.regWrite 0x14 0x02310897, .regWrite 0x18 0x084000C0, .regWrite 0x1C 0x022F0013, .regWrite 0x20 0x232,
       .regWrite 0x24 0x02300014, .regWrite 0x28 0x80000000] := by decide

/-! ## Packets and audio -/

/-- 95 section 2.1. -/
theorem test_checksum_row16 : returned (.checksum [0x82, 0x02, 0x0D, 0x10, 0x28, 0x00, 0x10]) start = some (.byte 0x27) := by decide
theorem test_checksum_wraps : returned (.checksum (List.replicate 16 0xFF)) start = some (.byte 0x10) := by decide

/-- 95 section 2.2. -/
theorem test_avi_emit :
    traceOf (.aviEmit 16 0) start = some
      [.regWrite 0x30 0x281027, .regWrite 0x34 0x10, .regWrite 0x38 0x0, .regWrite 0x3C 0x2000000, .regWrite 0x2C 0x1] := by decide
theorem test_avi_all_ones :
    aviWords Config.reference ⟨0xFF, 0xFF, 0xFF, 0xFF, 0xFF, 0xFF, 0xFF, 0xFF, 0xFF, 0xFF, 0xFF, 0xFF, 0xFF⟩ 3
      = (0xFFFFFF7C, 0xFFFFFFFF, 0xFFFFFFFF, 0x0200FFFF) := by decide

/-- 95 section 2.3, rows 1 and 4. -/
theorem test_spd_emit :
    traceOf .spdEmit start = some
      [.regWrite 0x44 0x190183, .regWrite 0x4C 0x4D4F434C, .regWrite 0x50 0x4D44484D, .regWrite 0x54 0x58542049,
       .regWrite 0x58 0x474E4520, .regWrite 0x5C 0x454E49, .regWrite 0x60 0x0, .regWrite 0x48 0x41555140,
       .regWrite 0x40 0x1] := by decide
theorem test_spd_masks_to_seven_bits :
    spdEncode (Vector.replicate 8 0xFF) (Vector.replicate 16 0xFF) 0
      = ⟨0x7F7F7F7B, 0x7F7F7F7F, 0x7F7F7F7F, 0x7F7F7F7F, 0x7F7F7F7F, 0x7F7F7F7F, 0x0000007F⟩ := by decide

/-- 95 section 2.4. -/
theorem test_ainfo_emit : traceOf (.ainfoEmit .two 0 0) start = some [.regWrite 0x68 0x170, .regWrite 0x6C 0x0, .regWrite 0x64 0x1] := by
  decide
theorem test_ainfo_eight : ainfoEncode (Config.reference.audioChannelTable.codes .eight) 15 1 = (0x00000753, 0x0000F81F) := by decide

/-- 95 section 2.6. -/
theorem test_acr_calc :
    returned (.acrCalc 27000000 .r88k2) start = some (.acr (some ⟨6272, 0x07530000, .x2, .s44⟩)) := by decide
theorem test_acr_calc_exact_match : returned (.acrCalc 148500001 .r48k) start = some (.acr none) := by decide
theorem test_acr_setup :
    traceOf (.acrSetup 74250000 .r96k) start = some
      [.regWrite 0x84 0x1220A000, .regWrite 0x88 0x1800, .regWrite 0x70 0x10031] := by decide

/-- The example of 43_audio_drain R136. -/
theorem test_audio_enable :
    traceOf .audioEnable up = some
      [.regWrite 0x84 0x24414000, .regWrite 0x88 0x6000, .regWrite 0x70 0x31, .regWrite 0x68 0x170, .regWrite 0x6C 0x0,
       .regWrite 0x64 0x1, .audioChanged true] := by decide

/-- 95 section 2.6: an unsupported clock is reported. -/
theorem test_audio_enable_unsupported :
    traceOf .audioEnable { up with ts := { up.ts with pixelClockHz := 148351648 } } = some [.report .unsupportedFormat] := by decide

/-! ## States that meet the invariant -/

/-- The clauses of the invariant that a small state can be checked for by evaluation. -/
abbrev Checked (s : State) : Prop :=
  s.cfg.fixedOk = true ∧
  (s.ts.panelPoweredOn = true → s.ts.hpdState ≠ .hpdOff) ∧
  (s.ts.hpdState = .connected → s.ts.connectionState = .connected) ∧
  (s.ts.hpdState = .disconnected → s.ts.connectionState = .disconnected) ∧
  (s.ts.hotplugOffPending = true → s.ts.panelPoweredOn = true) ∧
  (s.offPending = true → s.ts.panelPoweredOn = true) ∧
  s.enabled.core = s.ts.panelPoweredOn ∧ s.enabled.cec = s.ts.panelPoweredOn ∧
  s.enabled.hotplug = s.ts.hpdInitialized ∧ intEnBit s.tx.hpdIntCtrl = s.ts.hpdInitialized ∧
  (s.intPending = true → intEnBit s.tx.hpdIntCtrl = true) ∧ s.wq.Nodup ∧
  (Task.hpd ∈ s.wq ↔ s.hpdTaskPending = true) ∧ (s.ts.hpdState = .hpdOff → s.hpdTaskPending = false) ∧
  ((Task.off ∈ s.wq ∨ s.spWorker ≠ .idle) ↔ s.offPending = true) ∧ (s.spWorker ≠ .idle → Task.off ∉ s.wq) ∧
  (s.busy = true ↔ s.spHost ≠ .idle) ∧
  (s.spWorker = .powerOffTask .p2 ∨ s.spWorker = .powerOffTask .p3 →
    1 ≤ s.drainRound ∧ s.drainRound ≤ s.cfg.drainRounds ∧ 1 ≤ s.drainAttempt ∧ s.drainAttempt ≤ s.cfg.drainAttempts) ∧
  s.spHost ≠ .resume .w ∧ s.spWorker ≠ .powerOffTask .p1 ∧ (s.rdata = 0 ∨ s.rdata = 1) ∧
  (s.err = 0 ∨ s.err = 1 ∨ s.err = 2 ∨ s.err = 6)

/-- A state that passes the checks, whose POWER_ON waits for something and whose reserved bits are 0, meets the invariant. -/
theorem inv_of_checked {s : State} (h : Checked s) (wait : s.ts.panelPoweredOn = true → s.spHost = .idle)
    (first : ∀ a, s.spHost ≠ .powerOn .w a) (regs : reservedZero s.tx) : Inv s := by
  obtain ⟨h0, h1, h2, h3, h4, h5, h6, h7, h8, h9, h10, h11, h12, h13, h14, h15, h16, h17, h18, h19, h20, h21⟩ := h
  exact ⟨h0, h1, ⟨h2, h3⟩, h4, h5, h6, h7, h8, h9, h10, h11, h12, h13, h14, h15, h16,
    fun a e on => by simp [wait on] at e, h17, ⟨first, h18, h19⟩, h20, h21, regs⟩

/-- Registers that hold a core word and a watch word and are 0 elsewhere meet the reserved-bit clause. -/
theorem reserved_of_words (a b : Word) (ha : a &&& ~~~(0x3 : Word) = 0) (hb : b &&& ~~~(0x6 : Word) = 0) :
    reservedZero { State.reset.tx with ctrl := a, hpdIntCtrl := b } := by
  intro r
  cases r
  case ctrl => exact ha
  case hpdIntCtrl => exact hb
  all_goals exact BitVec.zero_and

/-- The invariant says nothing of the agenda. -/
theorem inv_next (a : Action) {s : State} (h : Inv s) : Inv (next a s) := by
  cases h
  constructor <;> assumption

theorem inv_start : Inv start :=
  inv_of_checked (by decide) (by decide) (fun _ => nofun) (reserved_of_words 0 0 (by decide) (by decide))

theorem inv_queued : Inv queued :=
  inv_of_checked (by decide) (by decide) (fun _ => nofun) (reserved_of_words 0 6 (by decide) (by decide))

theorem inv_up : Inv up :=
  inv_of_checked (by decide) (by decide) (fun _ => nofun) (reserved_of_words 3 4 (by decide) (by decide))

theorem inv_deferred : Inv deferred :=
  inv_of_checked (by decide) (by decide) (fun _ => nofun) (reserved_of_words 3 4 (by decide) (by decide))

theorem inv_waiting : Inv (waiting 16 plugged) :=
  inv_of_checked (by decide) (by decide) (fun _ => nofun) (reserved_of_words 0 4 (by decide) (by decide))

/-! ## Witnesses: a state and operands that meet the hypotheses of each obligation, clause by clause -/

theorem witness_DecodeAndEncodeAgree :
    encode (.powerOn 255) = some 0x0000FF02 ∧ encode (.setAudioRate .r192k) = some 0x00000608 ∧
    decode 0x00000608 = .ok (.setAudioRate .r192k) := by decide

theorem witness_IllegalWordsCompleteWithError :
    (next (.hostWrite 0x00 0x708) start).agenda = [⟨.hostWrite 0x00 0x708, answers⟩] ∧ start.busy = false ∧
    ¬ legalCommandWord 0x708 ∧ ¬ legalCommandWord 0x10002 ∧ legalCommandWord 0xFF02 ∧ legalCommandWord 0x608 := by
  unfold legalCommandWord
  decide

theorem witness_StepRunsDecodedCommand :
    ((next (.hostWrite 0x00 0x7) (waiting 16 plugged)).agenda = [⟨.hostWrite 0x00 0x7, answers⟩] ∧
      (waiting 16 plugged).busy = true) ∧
    ((next (.hostWrite 0x00 0xFF02) start).agenda = [⟨.hostWrite 0x00 0xFF02, answers⟩] ∧ start.busy = false ∧
      decode 0xFF02 = .ok (.powerOn 255)) := by decide

theorem witness_AgentsTakeTheirNextStep :
    ((next .hostStep start).agenda = [⟨.hostStep, answers⟩] ∧ start.spHost = .idle) ∧
    (waiting 16 plugged).spHost = .powerOn .b ⟨16, 0, 0, 0⟩ ∧
    { plugged with spHost := .resume .b }.spHost = .resume .b ∧
    (next .irq armed).agenda = [⟨.irq, answers⟩] ∧
    ((next .worker (downing .p2 1 1)).agenda = [⟨.worker, answers⟩] ∧ (downing .p2 1 1).spWorker = .powerOffTask .p2) ∧
    (queued.spWorker = .idle ∧ queued.wq = [.hpd]) ∧
    ({ up with wq := [.off, .hpd] }.spWorker = .idle ∧ { up with wq := [.off, .hpd] }.wq = [.off, .hpd]) ∧
    (start.spWorker = .idle ∧ start.wq = []) := by decide

theorem witness_BadOffsetsAreRefused :
    (0x02 % 4 ≠ 0 ∧ 0x18 ≤ 0x18 ∧ 0x18 % 4 = 0) ∧
    (next (.hostWrite 0x18 1) start).agenda = [⟨.hostWrite 0x18 1, answers⟩] ∧
    ∃ t, step (next (.hostWrite 0x00 0x101) start) = .next t ∧ t.trace = start.trace ++ t.trace ∧
      Rec.regWrite 0x04 0x6 ∈ t.trace :=
  ⟨by decide, rfl, stepped (next (.hostWrite 0x00 0x101) start), rfl, by decide, by decide⟩

theorem witness_HostPortReadsAndWrites :
    (next (.hostWrite 0x04 5) start).agenda = [⟨.hostWrite 0x04 5, answers⟩] ∧
    (next (.hostWrite 0x08 5) start).agenda = [⟨.hostWrite 0x08 5, answers⟩] ∧
    (next (.hostWrite 0x0C 5) start).agenda = [⟨.hostWrite 0x0C 5, answers⟩] ∧
    (next (.hostWrite 0x10 5) start).agenda = [⟨.hostWrite 0x10 5, answers⟩] ∧
    (next (.hostWrite 0x14 5) start).agenda = [⟨.hostWrite 0x14 5, answers⟩] ∧
    (next (.hostRead 0x14) start).agenda = [⟨.hostRead 0x14, answers⟩] := by decide

theorem witness_OperationsNotEnabledChangeNothing :
    (¬ (start.intPending = true ∧ start.tx.hpdIntCtrl.getLsbD 2 = true) ∧
      { start.cfg with spuriousIrq := false }.spuriousIrq = false) ∧
    (¬ ∃ q, start.wq = .hpd :: q) ∧ (start.spWorker = .idle ∧ ¬ ∃ q, start.wq = .off :: q) ∧
    (downing .p3 1 1).spWorker ≠ .powerOffTask .p2 :=
  ⟨by decide, nofun, ⟨rfl, nofun⟩, by decide⟩

theorem witness_SetHpdEnableArms :
    armed.ts.hpdState ≠ .hpdOff ∧
    (start.ts.hpdState = .hpdOff ∧ { answers with enableHotplug := false }.enableHotplug = false) ∧
    (start.ts.hpdState = .hpdOff ∧ start.draws.enableHotplug = true) := by decide

theorem witness_SetHpdDisableDefersOrTearsDown :
    start.ts.hpdState = .hpdOff ∧ (up.ts.hpdState ≠ .hpdOff ∧ up.ts.panelPoweredOn = true) ∧
    (queued.ts.hpdState ≠ .hpdOff ∧ queued.ts.panelPoweredOn = false) := by decide

theorem witness_ArmSenseWatchesForTheOpposite :
    up.ts.connectionState = .connected ∧ armed.ts.connectionState = .disconnected := by decide

theorem witness_InterruptReadsAcknowledgesAndQueues :
    (plugged.cfg.spuriousIrq = true ∧ plugged.intPending = false) ∧
    (armed.tx.hpdIntCtrl.getLsbD 2 = true ∧ armed.intPending = true ∧ armed.hpdTaskPending = false) ∧
    ({ queued with intPending := true }.intPending = true ∧ queued.hpdTaskPending = true) := by decide

theorem witness_HotplugTaskFollowsTheLine :
    (queued.spWorker = .idle ∧ queued.wq = .hpd :: [] ∧
      (2 : Word).toNat = (if queued.intPending then 1 else 0) + (if queued.sense then 2 else 0)) ∧
    start.ts.hpdState = .hpdOff ∧ (plugged.ts.hpdState = .connected ∧ plugged.sense = true) ∧
    ({ queued with sense := false }.sense = false ∧ { queued.ts with hpdState := .disconnected }.hpdState = .disconnected) ∧
    (queued.ts.hpdState = .hpdArmed ∧ queued.sense = true ∧ queued.draws.sinkRead = some ⟨false, 2⟩) ∧
    { answers with sinkRead := none }.sinkRead = none := by decide

theorem witness_SameSampleIsPublishedOnce :
    ∃ t t', queued.spWorker = .idle ∧ queued.wq = [.hpd] ∧ queued.ts.hpdState ≠ .hpdOff ∧ exec .hpdTask queued = .next t ∧
      { t with wq := [.hpd] }.spWorker = .idle ∧ { t with wq := [.hpd] }.sense = queued.sense ∧
      exec .hpdTask { t with wq := [.hpd] } = .next t' ∧ t'.trace = t.trace ++ [.regRead 0x0C 0x2, .regWrite 0x04 0x4] :=
  ⟨_, _, rfl, rfl, by decide, rfl, rfl, rfl, rfl, by decide⟩

theorem witness_ResumeWaitsThenDecides :
    (start.spHost ≠ .resume .b ∧ start.ts.panelSuspended = false) ∧
    ({ plugged.ts with panelSuspended := true }.panelSuspended = true ∧ plugged.ts.hpdState ≠ .hpdOff) ∧
    ({ armed with spHost := .resume .b }.spHost = .resume .b ∧ armed.hpdEventSeen = false ∧
      armed.draws.resumeTimeout = false) ∧
    ({ plugged with spHost := .resume .b }.spHost = .resume .b ∧ plugged.hpdEventSeen = true) ∧
    { answers with resumeTimeout := true }.resumeTimeout = true := by decide

theorem witness_LatchSetsThePendingInterrupt :
    (next (.setSense false) plugged).agenda = [⟨.setSense false, answers⟩] ∧ false ≠ plugged.sense := by decide

theorem witness_PowerOnFollowsItsSteps :
    ((∀ a, start.spHost ≠ .powerOn .b a) ∧ start.ts.hpdState = .hpdOff) ∧
    ((∀ a, up.spHost ≠ .powerOn .b a) ∧ up.ts.panelPoweredOn = true ∧ up.offPending = false) ∧
    ((∀ lbl a, plugged.spHost ≠ .powerOn lbl a) ∧ plugged.ts.hpdState ≠ .hpdOff ∧ plugged.ts.panelPoweredOn = false) ∧
    { plugged with spHost := .powerOn .w ⟨4, 0, 0, 0⟩ }.spHost = .powerOn .w ⟨4, 0, 0, 0⟩ ∧
    ((waiting 4 (downing .p3 1 1)).spHost = .powerOn .b ⟨4, 0, 0, 0⟩ ∧ (waiting 4 (downing .p3 1 1)).offPending = true) ∧
    ((waiting 4 start).offPending = false ∧ (waiting 4 start).ts.hpdState = .hpdOff) ∧
    ({ answers with enableCore := false }.enableCore = false ∧ { answers with enableCec := false }.enableCec = false) ∧
    ((waiting 4 plugged).offPending = false ∧ plugged.ts.hpdState ≠ .hpdOff ∧ plugged.draws.enableCore = true ∧
      plugged.draws.enableCec = true) :=
  ⟨⟨fun _ => nofun, by decide⟩, ⟨fun _ => nofun, by decide, by decide⟩, ⟨fun _ _ => nofun, by decide, by decide⟩,
    by decide, by decide, by decide, by decide, by decide⟩

theorem witness_PowerOffQueuesOneTask :
    (up.ts.panelPoweredOn = true ∧ up.offPending = false) ∧ plugged.ts.panelPoweredOn = false ∧
    (downing .p2 1 1).offPending = true := by decide

theorem witness_PowerOffTaskRunsItsSteps :
    ({ up with wq := [.off] }.spWorker = .idle ∧ { up with wq := [.off] }.wq = .off :: []) ∧
    (downing .p2 1 1).spWorker = .powerOffTask .p2 ∧
    (deferred.spWorker = .powerOffTask .p3 ∧ deferred.ts.hotplugOffPending = true) ∧
    ((downing .p3 1 1).spWorker = .powerOffTask .p3 ∧ (downing .p3 1 1).ts.hotplugOffPending = false) := by decide

theorem witness_DrainPollCountsAttemptsAndRounds :
    ((downing .p2 1 1).spWorker = .powerOffTask .p2 ∧ (downing .p2 1 1).draws.engineActive = false) ∧
    ((busyAudio (downing .p2 1 499)).draws.engineActive = true ∧ (busyAudio (downing .p2 1 499)).drainAttempt < start.cfg.drainAttempts) ∧
    (start.cfg.drainAttempts ≤ (busyAudio (downing .p2 14 500)).drainAttempt ∧
      (busyAudio (downing .p2 14 500)).drainRound < start.cfg.drainRounds) ∧
    (start.cfg.drainAttempts ≤ (busyAudio (downing .p2 15 500)).drainAttempt ∧
      start.cfg.drainRounds ≤ (busyAudio (downing .p2 15 500)).drainRound) ∧ start.cfg.fixedOk = true := by decide

theorem witness_DrainEndsWithinItsBound :
    start.cfg.fixedOk = true ∧ (downing .p2 1 1).spWorker = .powerOffTask .p2 ∧ (downing .p2 1 1).drainRound = 1 ∧ (downing .p2 1 1).drainAttempt = 1 ∧
    7499 < 7500 := by decide

/-- 95 program P5 from its line 8 on: the power-off's last step, then step B of the waiting POWER_ON. -/
def handover : State :=
  { waiting 4 (downing .p3 1 3) with agenda := [⟨.worker, answers⟩, ⟨.hostStep, answers⟩] }

theorem witness_PowerOnWaitsForThePendingPowerOff :
    handover.offPending = true ∧
    ∃ t l2, Host.Core.run Sys2Proof.core 2 handover = .next t ∧
      t.trace = [.regWrite 0x00 0x0, .callPowerDownPhysicalLayer, .callDisable .core, .callDisable .cec,
        .regWrite 0x04 0x4] ++ .callEnable .core true :: l2 :=
  ⟨rfl, stepped (stepped handover), (stepped (stepped handover)).trace.drop 6, rfl, by decide⟩

theorem witness_DeferredDisableRunsExactlyOnce :
    (Inv (next .worker deferred) ∧ (next .worker deferred).ts.hotplugOffPending = true ∧
      step (next .worker deferred) = .next (stepped (next .worker deferred)) ∧
      (stepped (next .worker deferred)).trace = deferred.trace ++
        [.regWrite 0x00 0x0, .callPowerDownPhysicalLayer, .callDisable .core, .callDisable .cec, .regWrite 0x04 0x0,
         .callDisable .hotplug]) ∧
    (Inv (next .irq deferred) ∧ step (next .irq deferred) = .next (stepped (next .irq deferred)) ∧
      (stepped (next .irq deferred)).ts.hotplugOffPending = true) :=
  ⟨⟨inv_next _ inv_deferred, rfl, rfl, by decide⟩, inv_next _ inv_deferred, rfl, by decide⟩

theorem witness_FailedCommandsLeaveTransmitterState :
    ∃ t, Inv (next (.hostWrite 0x00 0x1002) start) ∧ step (next (.hostWrite 0x00 0x1002) start) = .next t ∧
      t.trace = start.trace ++ [.done 0x02 1] ∧ (1 : Byte) ≠ 0 :=
  ⟨stepped (next (.hostWrite 0x00 0x1002) start), inv_next _ inv_start, rfl, by decide, by decide⟩

theorem witness_PhysicalLayerGoesDownAfterTheDrain :
    (step (next .worker (downing .p3 1 1)) = .next (stepped (next .worker (downing .p3 1 1))) ∧
      Rec.callPowerDownPhysicalLayer ∈ (stepped (next .worker (downing .p3 1 1))).trace) ∧
    (stepped (next .worker (downing .p2 1 1))).spWorker = .powerOffTask .p3 ∧
    (stepped (next .worker (busyAudio (downing .p2 15 500)))).spWorker = .powerOffTask .p3 ∧
    (stepped (next .worker { up with wq := [.off] })).spWorker = .powerOffTask .p2 :=
  ⟨⟨rfl, by decide⟩, by decide, by decide, by decide⟩

theorem witness_ResolveTimingPicksIdGeometryOrDefault :
    ((16 : FormatId) ≠ 0 ∧ (16, row16) ∈ start.cfg.timingTable) ∧
    (start.cfg.geometryTable = [⟨640, 480, 60, 1⟩, ⟨720, 480, 60, 2⟩, ⟨1280, 720, 60, 4⟩] ++
      ⟨1920, 1080, 60, 16⟩ :: [⟨720, 576, 50, 17⟩]) ∧
    (∀ g ∈ [(⟨640, 480, 60, 1⟩ : GeometryRow), ⟨720, 480, 60, 2⟩, ⟨1280, 720, 60, 4⟩],
      ¬ (g.xres = 1920 ∧ g.yres = 1080 ∧ g.frameRate = 60)) ∧
    ((∀ t, ((99 : FormatId), t) ∉ start.cfg.timingTable) ∧
      ∀ g ∈ start.cfg.geometryTable, ¬ (g.xres = 800 ∧ g.yres = 600 ∧ g.frameRate = 60)) ∧
    start.cfg.wf = true :=
  ⟨by decide, rfl, by decide,
    ⟨fun _ h => (by decide : ∀ row ∈ start.cfg.timingTable, row.1 ≠ 99) _ h rfl, by decide⟩, by decide⟩

theorem witness_TimingProgWritesTheTimingRegisters :
    row5.legal = true ∧ 2199 + 1 = row5.activeH.toNat + row5.frontPorchH.toNat + row5.backPorchH.toNat + row5.pulseWidthH.toNat ∧
    561 + 1 = row5.activeV.toNat + row5.frontPorchV.toNat + row5.backPorchV.toNat + row5.pulseWidthV.toNat ∧
    192 = row5.backPorchH.toNat + row5.pulseWidthH.toNat ∧ 2112 = 192 + row5.activeH.toNat ∧
    19 + 1 = row5.backPorchV.toNat + row5.pulseWidthV.toNat ∧ 559 = 19 + row5.activeV.toNat := by decide

theorem witness_ChecksumMakesTheSumZero : 4080 = ((List.replicate 16 (0xFF : Byte)).map BitVec.toNat).sum := by decide

theorem witness_AviEmitPacksTheRow :
    (∀ row, ((3 : FormatId), row) ∉ start.cfg.aviTable) ∧
    start.cfg.aviTable = [(1, referenceAvi 0x18 1), (2, referenceAvi 0x18 2), (4, referenceAvi 0x28 4),
      (5, referenceAvi 0x28 5)] ++ (16, referenceAvi 0x28 16) :: [(17, referenceAvi 0x18 17)] ∧
    ∀ r ∈ [((1 : FormatId), referenceAvi 0x18 1), (2, referenceAvi 0x18 2), (4, referenceAvi 0x28 4),
      (5, referenceAvi 0x28 5)] ++ [(17, referenceAvi 0x18 17)], r.1 ≠ 16 :=
  ⟨fun _ h => (by decide : ∀ row ∈ start.cfg.aviTable, row.1 ≠ 3) _ h rfl, by decide, by decide⟩

theorem witness_SpdEmitPacksTheStrings :
    [0x51, 0x55, 0x41, 0x4C, 0x43, 0x4F, 0x4D, 0x4D] = start.cfg.vendorName.toList.map (fun b => b.toNat % 128) := by decide

theorem witness_AudioInfoEmitPacksTheCodes :
    0x07 = (start.cfg.audioChannelTable.codes .eight).count.toNat ∧
    0x1F = (start.cfg.audioChannelTable.codes .eight).allocation.toNat ∧ 0xF8 = (0x1F % 16) * 8 + (3 % 2) * 128 ∧ 0x53 + 0x84 + 0x01 + 0x0A + 0x07 + 0x1F + 0xF8 = 0x200 := by
  decide

theorem witness_AcrCalcLooksUpAndScales :
    (∀ row ∈ start.cfg.acrTable, row.clockHz ≠ 148351648) ∧
    start.cfg.acrTable = [referenceAcr 25200000 25200 28000 25200 6144, referenceAcr 27000000 27000 30000 27000 6144] ++
      referenceAcr 74250000 74250 82500 74250 6144 :: [referenceAcr 148500000 148500 165000 148500 24576] ∧
    (∀ r ∈ [referenceAcr 25200000 25200 28000 25200 6144, referenceAcr 27000000 27000 30000 27000 6144] ++
      [referenceAcr 148500000 148500 165000 148500 24576], r.clockHz ≠ 74250000) ∧
    (SampleRate.r192k, 4, 3, ⟨24576, 74250⟩) ∈ rateTable (referenceAcr 74250000 74250 82500 74250 6144) := by decide

theorem witness_AcrSetupWritesOneSlot :
    acrCalc start.cfg 0 .r48k = none ∧
    acrCalc start.cfg 25200000 .r32k = some ⟨4096, 0x06270000, .x1, .s32⟩ ∧
    acrCalc start.cfg 27000000 .r44k1 = some ⟨6272, 0x07530000, .x1, .s44⟩ ∧
    acrCalc start.cfg 148500000 .r192k = some ⟨6144, 0x24414000, .x4, .s48⟩ := by decide

theorem witness_EmittedNTimesMultiplierIsTableN :
    Config.reference.acrMultiplesOk = true ∧ referenceAcr 74250000 74250 82500 74250 6144 ∈ Config.reference.acrTable ∧
    Config.reference.keysUnique = true ∧ acrCalc Config.reference 74250000 .r176k4 = some ⟨6272, 0x14244000, .x4, .s44⟩ := by
  decide

theorem witness_AudioEnableProgramsOrReports :
    acrCalc up.cfg up.ts.pixelClockHz up.ts.audioSampleRate ≠ none ∧
    acrCalc start.cfg start.ts.pixelClockHz start.ts.audioSampleRate = none := by decide

theorem witness_EveryStepKeepsTheInvariant :
    Inv (next .hostStep (waiting 16 plugged)) ∧
    step (next .hostStep (waiting 16 plugged)) = .next (stepped (next .hostStep (waiting 16 plugged))) ∧
    (stepped (next .hostStep (waiting 16 plugged))).ts.panelPoweredOn = true :=
  ⟨inv_next _ inv_waiting, rfl, by decide⟩

theorem witness_TraceRecordsEveryRegisterChange :
    step (next .hostStep (waiting 16 plugged)) = .next (stepped (next .hostStep (waiting 16 plugged))) := rfl

theorem witness_DomainCallsAlternate :
    Inv (next .worker deferred) ∧ step (next .worker deferred) = .next (stepped (next .worker deferred)) ∧
    (stepped (next .worker deferred)).enabled = ⟨false, false, false⟩ :=
  ⟨inv_next _ inv_deferred, rfl, by decide⟩

theorem witness_HotplugStateFollowsItsTable :
    step (next .worker queued) = .next (stepped (next .worker queued)) ∧
    queued.ts.hpdState = .hpdArmed ∧ (stepped (next .worker queued)).ts.hpdState = .connected := ⟨rfl, rfl, by decide⟩

theorem witness_OnlyHostCommandsRaise :
    step (next .irq armed) = .next (stepped (next .irq armed)) ∧ (nextStimulus (next .irq armed)).action = .irq ∧
    (nextStimulus (next .worker queued)).action = .worker ∧
    (nextStimulus (next (.setSense false) queued)).action = .setSense false ∧
    (nextStimulus (next (.hostRead 0x10) queued)).action = .hostRead 0x10 := ⟨rfl, rfl, rfl, rfl, rfl⟩

theorem witness_InterruptIgnoresTransmitterState :
    ∃ t, exec .connIrq armed = .next t ∧ t.trace = [.regRead 0x0C 0x3, .regWrite 0x08 0x1] := ⟨_, rfl, by decide⟩

theorem witness_StaleConnectionIsNotActedUpon :
    Inv (next (.hostWrite 0x00 0x101) start) ∧ start.ts.hpdState = .hpdOff ∧
    (nextStimulus (next (.hostWrite 0x00 0x101) start)).action ≠ .hostWrite 0x00 0x6 ∧
    step (next (.hostWrite 0x00 0x101) start) = .next (stepped (next (.hostWrite 0x00 0x101) start)) :=
  ⟨inv_next _ inv_start, rfl, by decide, rfl⟩

theorem witness_TablesAndArgumentsAreNotWritten :
    step (next (.hostWrite 0x04 5) start) = .next (stepped (next (.hostWrite 0x04 5) start)) ∧
    (stepped (next (.hostWrite 0x04 5) start)).arg0 = 5 := ⟨rfl, by decide⟩

theorem witness_PowerStatesAreTheThreeOfTheTable :
    (Inv start ∧ powerState start = some .off) ∧ (Inv queued ∧ powerState queued = some .sensing) ∧
    (Inv up ∧ powerState up = some .linkUp) :=
  ⟨⟨inv_start, by decide⟩, ⟨inv_queued, by decide⟩, ⟨inv_up, by decide⟩⟩

theorem witness_FieldsHaveTheirWriters :
    (step (next .worker queued) = .next (stepped (next .worker queued)) ∧
      (nextStimulus (next .worker queued)).action = .worker) ∧
    (step (next .irq armed) = .next (stepped (next .irq armed)) ∧ (nextStimulus (next .irq armed)).action = .irq) ∧
    (step (next (.setSense false) up) = .next (stepped (next (.setSense false) up)) ∧
      (nextStimulus (next (.setSense false) up)).action = .setSense false) :=
  ⟨⟨rfl, rfl⟩, ⟨rfl, rfl⟩, ⟨rfl, rfl⟩⟩

theorem witness_ResetLeavesTheTabledValues : Config.reference.fixedOk = true := by decide

theorem witness_InvariantHoldsAtReset : Config.reference.fixedOk = true := by decide

theorem witness_ScriptLinesExpandToTheirWrites :
    ScriptLine.powerOff ∈ [ScriptLine.setHpd true, .powerOn 16 0 0 0, .powerOff, .suspend, .resume, .queryConn, .queryPower,
      .setAudioRate .r96k, .hpdOn, .hpdOff, .powerOnGeom 0 0 0] := by decide

theorem witness_LineDrivenToItsLevelEvaluatesTheLatch :
    (next (.setSense true) plugged).agenda = [⟨.setSense (next (.setSense true) plugged).sense, answers⟩] := by decide

theorem witness_WorkerLineRunsItsTaskToCompletion :
    start.cfg.fixedOk = true ∧ (queued.spWorker = .idle ∧ queued.wq = .hpd :: []) ∧
    ({ up with wq := [.off, .hpd] }.spWorker = .idle ∧ { up with wq := [.off, .hpd] }.wq = .off :: [.hpd]) ∧
    7502 ≤ (List.replicate 7502 answers).length :=
  ⟨by decide, by decide, by decide, (List.length_replicate ..).ge⟩

end Sys2Proof.Machine.Tests
end

/-! ## The invariant is kept by every step

`step_move` says what a step can do. What a move changes of the clauses of `Inv` is said here once for each group of fields
that moves share: a queue that loses or gains a task, a watched line, a torn-down hot-plug domain, a panel that goes on or
off, a host command that ends. A move is then the composition of its parts, and the fields that no clause reads are free. -/

namespace Sys2Proof.Machine

section Clauses
variable {s : State}

/-- The derived flag of 10_state R14 as a condition on the state. -/
theorem hpdInitialized_iff (ts : TransmitterState) : ts.hpdInitialized = true ↔ ts.hpdState ≠ .hpdOff := by
  simp [TransmitterState.hpdInitialized]

/-- The two words that watch for a level enable delivery (10_state R21). -/
theorem intEnBit_watching {w : Word} (hw : w = 0x4 ∨ w = 0x6) : intEnBit w = true := by
  rcases hw with rfl | rfl <;> decide

/-- The word ARM_SENSE and HPD_TASK write, whatever they choose it by (40_hotplug_fsm R84, R86). -/
theorem ite_watching (p : Prop) [Decidable p] :
    (if p then 0x4 else 0x6 : Word) = 0x4 ∨ (if p then 0x4 else 0x6 : Word) = 0x6 := by
  split
  · exact .inl rfl
  · exact .inr rfl

/-- A watch word in HPD_INT_CTRL sets no reserved bit. -/
theorem reservedZero_watching {t : TxRegs} (ht : reservedZero t) {w : Word} (hw : w = 0x4 ∨ w = 0x6) :
    reservedZero { t with hpdIntCtrl := w } :=
  reservedZero_set (r := .hpdIntCtrl) ht (by rcases hw with rfl | rfl <;> decide)

/-- The records of a successful POWER_ON set no reserved bit (41_power_sequencer R100). -/
theorem reservedZero_powerOn {tx : TxRegs} (htx : reservedZero tx) (c : Config) (id : FormatId) (t : VideoTiming)
    (rate : SampleRate) (sink : SinkInfo) (connection : Connection) :
    reservedZero (replayWrites tx (powerOnRecords c id t rate sink connection)) := by
  obtain ⟨l, hl, hlink⟩ := powerOnRecords_link c id t rate sink connection
  rw [hl]
  exact reservedZero_link l hlink htx

/-- A pending interrupt is one of an armed hot-plug machine. -/
theorem Inv.armed_of_intPending (h : Inv s) (hp : s.intPending = true) : s.ts.hpdState ≠ .hpdOff :=
  (hpdInitialized_iff s.ts).1 (h.delivery ▸ h.pendingEnabled hp)

/-- The panel is on while WORKER powers it off. -/
theorem Inv.powered_of_inPowerOff (h : Inv s) (hw : inPowerOff s) : s.ts.panelPoweredOn = true :=
  h.pendingPowered (h.offQueued.1 (.inr hw))

/-- The drain counts of 00_scope R5. -/
theorem Inv.drainCounts (h : Inv s) : s.cfg.drainAttempts = 500 ∧ s.cfg.drainRounds = 15 := by
  have hfix := h.fixed
  simp only [Config.fixedOk, Bool.and_eq_true, decide_eq_true_eq] at hfix
  tauto

end Clauses

section Parts
variable {s : State}

/-- No clause reads the trace. -/
theorem Inv.traced (h : Inv s) (l : List Rec) : Inv { s with trace := l } := { h with }

/-- No clause reads the fields that taking a stimulus changes. -/
theorem Inv.prepared (h : Inv s) : Inv (prepare s) := { h with }

/-- The line moves, and the latch is set only where delivery is on (60_exceptions R188). -/
theorem Inv.lineMoved (h : Inv s) (level : Bool) :
    Inv { s with sense := level, intPending := latch s.tx.hpdIntCtrl level s.intPending } :=
  { h with
    pendingEnabled := fun hp => by
      by_contra hen
      rw [latch_disabled (Bool.eq_false_iff.2 hen)] at hp
      exact hen (h.pendingEnabled hp) }

/-- An acknowledge clears the pending interrupt (60_exceptions R189). -/
theorem Inv.acknowledged (h : Inv s) : Inv { s with intPending := false } := { h with pendingEnabled := nofun }

/-- An armed machine may watch for either level, with an interrupt pending or not. -/
theorem Inv.watching (h : Inv s) (harmed : s.ts.hpdState ≠ .hpdOff) {w : Word} (hw : w = 0x4 ∨ w = 0x6) (pending : Bool) :
    Inv { s with tx := { s.tx with hpdIntCtrl := w }, intPending := pending } :=
  { h with
    delivery := (intEnBit_watching hw).trans ((hpdInitialized_iff s.ts).2 harmed).symm
    pendingEnabled := fun _ => intEnBit_watching hw
    reserved := reservedZero_watching h.reserved hw }

/-- HPD_TASK is queued, while armed and not yet queued (40_hotplug_fsm R85). -/
theorem Inv.hpdEnqueued (h : Inv s) (harmed : s.ts.hpdState ≠ .hpdOff) (hnot : s.hpdTaskPending = false) :
    Inv { s with hpdTaskPending := true, wq := s.wq ++ [.hpd] } :=
  have hmem : Task.hpd ∉ s.wq := fun hm => by simp [h.hpdQueued.1 hm] at hnot
  { h with
    queueNodup := by simpa [List.nodup_append] using ⟨h.queueNodup, fun a ha e => hmem (e ▸ ha)⟩
    hpdQueued := by simp
    offQuiet := fun hoff => absurd hoff harmed
    offQueued := by simpa [inPowerOff] using h.offQueued
    offOnce := fun hin => by simpa using h.offOnce hin }

/-- WORKER takes HPD_TASK off the queue (40_hotplug_fsm R86). -/
theorem Inv.hpdDequeued (h : Inv s) {q : List Task} (hq : s.wq = .hpd :: q) :
    Inv { s with wq := q, hpdTaskPending := false } := by
  have hnodup := hq ▸ h.queueNodup
  have hoff : Task.off ∈ q ↔ Task.off ∈ s.wq := by simp [hq]
  exact { h with
    queueNodup := hnodup.of_cons
    hpdQueued := by simpa using hnodup.notMem
    offQuiet := fun _ => rfl
    offQueued := by simpa only [hoff, inPowerOff] using h.offQueued
    offOnce := fun hin => by simpa only [hoff] using h.offOnce hin }

/-- A sample of the line becomes the state of both machines (40_hotplug_fsm R86 steps T4, T6). -/
theorem Inv.sampled (h : Inv s) (harmed : s.ts.hpdState ≠ .hpdOff) (connected : Bool) :
    Inv { s with ts := { s.ts with
      hpdState := sampledState connected
      connectionState := sampledConnection connected } } :=
  have hnew : sampledState connected ≠ .hpdOff := by cases connected <;> decide
  have hinit := ((hpdInitialized_iff s.ts).2 harmed).trans ((hpdInitialized_iff { s.ts with
    hpdState := sampledState connected, connectionState := sampledConnection connected }).2 hnew).symm
  { h with
    poweredArmed := fun _ => hnew
    connection := by cases connected <;> simp [connectionAgrees, sampledState, sampledConnection]
    hotplugFlag := h.hotplugFlag.trans hinit
    delivery := h.delivery.trans hinit
    offQuiet := fun hoff => absurd hoff hnew }

/-- Hot-plug is torn down while the panel is off: nothing pending or queued for HPD_TASK (40_hotplug_fsm R83). -/
theorem Inv.tornDown (h : Inv s) (hpanel : s.ts.panelPoweredOn = false) :
    Inv { s with
      tx := { s.tx with hpdIntCtrl := 0x0 }
      intPending := false
      hpdTaskPending := false
      wq := s.wq.filter (· ≠ .hpd)
      enabled := { s.enabled with hotplug := false }
      ts := { s.ts with hpdState := .hpdOff } } :=
  { h with
    poweredArmed := fun hp => by simp [hpanel] at hp
    connection := ⟨nofun, nofun⟩
    hotplugFlag := rfl
    delivery := (by decide : intEnBit 0x0 = false)
    pendingEnabled := nofun
    queueNodup := h.queueNodup.filter _
    hpdQueued := by simp
    offQuiet := fun _ => rfl
    offQueued := by simpa [inPowerOff] using h.offQueued
    offOnce := fun hin => by simpa using h.offOnce hin
    reserved := reservedZero_set (r := .hpdIntCtrl) h.reserved (by decide) }

/-- POWEROFF_TASK starts: off the queue, and the drain counters at 1 (41_power_sequencer R102 step P1). -/
theorem Inv.offStarted (h : Inv s) {q : List Task} (hq : s.wq = .off :: q) :
    Inv { s with wq := q, drainRound := 1, drainAttempt := 1, spWorker := .powerOffTask .p2 } := by
  have hnodup := hq ▸ h.queueNodup
  obtain ⟨hattempts, hrounds⟩ := h.drainCounts
  obtain ⟨hpowerOn, hresume, -⟩ := h.pointers
  have hpending : s.offPending = true := h.offQueued.1 (.inl (by simp [hq]))
  exact { h with
    queueNodup := hnodup.of_cons
    hpdQueued := by simpa [hq] using h.hpdQueued
    offQueued := ⟨fun _ => hpending, fun _ => .inr nofun⟩
    offOnce := fun _ => hnodup.notMem
    counters := fun _ => by simp [hattempts, hrounds]
    pointers := ⟨hpowerOn, hresume, nofun⟩ }

/-- The counters stay in their ranges while a poll of the drain goes on (10_state R32, 43_audio_drain R135). -/
theorem Inv.counted (h : Inv s) {round attempt : Nat} (hround : 1 ≤ round ∧ round ≤ s.cfg.drainRounds)
    (hattempt : 1 ≤ attempt ∧ attempt ≤ s.cfg.drainAttempts) :
    Inv { s with drainRound := round, drainAttempt := attempt } :=
  { h with counters := fun _ => ⟨hround.1, hround.2, hattempt.1, hattempt.2⟩ }

/-- WORKER goes on to step P3 (43_audio_drain R135). -/
theorem Inv.drained (h : Inv s) (hw : s.spWorker = .powerOffTask .p2) :
    Inv { s with spWorker := .powerOffTask .p3 } := by
  have hin : inPowerOff s := by simp [inPowerOff, hw]
  obtain ⟨hpowerOn, hresume, -⟩ := h.pointers
  exact { h with
    offQueued := ⟨fun _ => h.offQueued.1 (.inr hin), fun _ => .inr nofun⟩
    offOnce := fun _ => h.offOnce hin
    counters := fun _ => h.counters (.inl hw)
    pointers := ⟨hpowerOn, hresume, nofun⟩ }

/-- The panel goes off in step P3, the power-off no longer pending (41_power_sequencer R102). -/
theorem Inv.poweredDown (h : Inv s) (hw : s.spWorker = .powerOffTask .p3) :
    Inv { s with
      tx := { s.tx with ctrl := 0x0 }
      ts := { s.ts with pixelClockHz := 0, panelPoweredOn := false, hotplugOffPending := false }
      enabled := { s.enabled with core := false, cec := false }
      offPending := false
      spWorker := .idle } := by
  have hin : inPowerOff s := by simp [inPowerOff, hw]
  obtain ⟨hpowerOn, hresume, -⟩ := h.pointers
  exact { h with
    poweredArmed := nofun
    deferredPowered := nofun
    pendingPowered := nofun
    coreFlag := rfl
    cecFlag := rfl
    offQueued := by simpa [inPowerOff] using h.offOnce hin
    offOnce := fun hout => absurd rfl hout
    waiting := fun _ _ => nofun
    counters := by simp [countersInRange]
    pointers := ⟨hpowerOn, hresume, nofun⟩
    reserved := reservedZero_set (r := .ctrl) h.reserved (by decide) }

end Parts

/-! ### A host command in flight -/

/-- A host command runs: BUSY is up, and every clause of the invariant holds but the agreement of BUSY with `sp.HOST`, which
is still idle where the write of CMD has just raised BUSY (10_state R11). -/
structure Running (s : State) : Prop where
  busy : s.busy = true
  rest : Inv { s with busy := s.spHost != .idle }

/-- The codes with which commands end (60_exceptions R185). -/
theorem raisedCode_ok : raisedCode 0 := .inl rfl
theorem raisedCode_precondition : raisedCode 1 := .inr (.inl rfl)
theorem raisedCode_powerDomain : raisedCode 2 := .inr (.inr (.inl rfl))
theorem raisedCode_illegalCommand : raisedCode 6 := .inr (.inr (.inr rfl))

section Commands
variable {s : State}

/-- A command that was in flight runs. -/
theorem Inv.running (h : Inv s) (hin : s.spHost ≠ .idle) : Running s :=
  { busy := h.busyInFlight.2 hin
    rest := { h with busyInFlight := by simp } }

/-- A write of CMD makes a command run. -/
theorem Inv.issued (h : Inv s) (w : Word) : Running { s with cmd := w, busy := true } :=
  { busy := rfl
    rest := { h with busyInFlight := by simp } }

/-- What is left of a running command once HOST is idle. -/
theorem Running.idle (h : Running s) : Inv { s with busy := false, spHost := .idle } := by
  obtain ⟨-, -, hworker⟩ := h.rest.pointers
  exact { h.rest with
    busyInFlight := by simp
    waiting := nofun
    pointers := ⟨nofun, nofun, hworker⟩ }

/-- A command whose effect keeps the invariant ends with a code that RESULT can hold (60_exceptions R185, R192). -/
theorem Inv.ended (h : Inv { s with busy := false, spHost := .idle }) {err : Byte} (he : raisedCode err) (op : Byte)
    (recs : List Rec) : Inv (ended op err recs s) :=
  { h with errCode := he }

/-- A command that goes on waiting is in flight. -/
theorem Running.keepsWaiting (h : Running s) (hin : s.spHost ≠ .idle) : Inv s :=
  { h.rest with busyInFlight := by simp [h.busy, hin] }

/-- POWER_ON waits for a pending power-off, or the panel is off (41_power_sequencer R100 step W). -/
theorem Running.powerOnWaits (h : Running s) (a : PowerOnArgs)
    (hwait : s.ts.panelPoweredOn = false ∨ s.offPending = true) : Inv { s with spHost := .powerOn .b a } := by
  obtain ⟨-, -, hworker⟩ := h.rest.pointers
  exact { h.rest with
    busyInFlight := by simp [h.busy]
    waiting := fun _ _ hp => hwait.resolve_left (by simp [show s.ts.panelPoweredOn = true from hp])
    pointers := ⟨nofun, nofun, hworker⟩ }

/-- RESUME waits for a publication (40_hotplug_fsm R89 step W). -/
theorem Running.resumeWaits (h : Running s) : Inv { s with hpdEventSeen := false, spHost := .resume .b } := by
  obtain ⟨-, -, hworker⟩ := h.rest.pointers
  exact { h.rest with
    busyInFlight := by simp [h.busy]
    waiting := nofun
    pointers := ⟨nofun, nofun, hworker⟩ }

/-- Step B of POWER_ON finds the panel off where no power-off is pending (41_power_sequencer R100). -/
theorem Running.unpowered_of_powerOn (h : Running s) {a : PowerOnArgs} (hsp : s.spHost = .powerOn .b a)
    (hno : s.offPending = false) : s.ts.panelPoweredOn = false :=
  Bool.eq_false_iff.2 fun hp => by simpa [hno] using h.rest.waiting a hsp hp

/-- SET_HPD 1 arms the machine, with an interrupt pending (40_hotplug_fsm R81). -/
theorem Inv.armed (h : Inv s) :
    Inv { s with
      enabled := { s.enabled with hotplug := true }
      ts := { s.ts with hpdState := .hpdArmed }
      tx := { s.tx with hpdIntCtrl := 0x6 }
      intPending := true } :=
  { h with
    poweredArmed := fun _ => nofun
    connection := ⟨nofun, nofun⟩
    hotplugFlag := rfl
    delivery := intEnBit_watching (.inr rfl)
    pendingEnabled := fun _ => intEnBit_watching (.inr rfl)
    offQuiet := nofun
    reserved := reservedZero_watching h.reserved (.inr rfl) }

/-- A power-off is queued, the panel on and none pending (41_power_sequencer R101). -/
theorem Inv.offEnqueued (h : Inv s) (hpanel : s.ts.panelPoweredOn = true) (hno : s.offPending = false) :
    Inv { s with offPending := true, wq := s.wq ++ [.off] } := by
  have hout : ¬ (Task.off ∈ s.wq ∨ inPowerOff s) := fun hin => by simp [h.offQueued.1 hin] at hno
  obtain ⟨hmem, hidle⟩ := not_or.1 hout
  exact { h with
    pendingPowered := fun _ => hpanel
    queueNodup := by simpa [List.nodup_append] using ⟨h.queueNodup, fun a ha e => hmem (e ▸ ha)⟩
    hpdQueued := by simpa using h.hpdQueued
    offQueued := by simp
    offOnce := fun hin => absurd hin hidle
    waiting := fun _ _ _ => rfl }

/-- POWER_ON brings up an armed machine while HOST is idle: both domains, the link's registers, the panel
(41_power_sequencer R100 steps B4 to B12). -/
theorem Inv.poweredUp (h : Inv s) (hidle : s.spHost = .idle) (harmed : s.ts.hpdState ≠ .hpdOff) {tx : TxRegs}
    (hw : tx.hpdIntCtrl = 0x4 ∨ tx.hpdIntCtrl = 0x6) (hres : reservedZero tx) (a : PowerOnArgs) (id : FormatId)
    (clock : Word) (pending : Bool) :
    Inv { s with
      enabled := { s.enabled with core := true, cec := true }
      ts := { s.ts with
        activeFormat := id
        xres := a.xres
        yres := a.yres
        frameRate := a.frameRate
        pixelClockHz := clock
        panelPoweredOn := true }
      tx := tx
      intPending := pending } :=
  { h with
    poweredArmed := fun _ => harmed
    deferredPowered := fun _ => rfl
    pendingPowered := fun _ => rfl
    coreFlag := rfl
    cecFlag := rfl
    delivery := (intEnBit_watching hw).trans ((hpdInitialized_iff s.ts).2 harmed).symm
    pendingEnabled := fun _ => intEnBit_watching hw
    waiting := fun b hb => by simp [hidle] at hb
    reserved := hres }

end Commands

/-! ### The moves of the agents -/

section Moves
variable {s t : State}

/-- Every move of a running host command ends in the invariant. -/
theorem HostMove.inv {i : Instr} (m : HostMove s i t) (h : Running s) : Inv t := by
  have hi := h.idle
  cases m with
  | armedAlready _ => exact hi.ended raisedCode_ok _ _
  | domainFailed _ _ => exact hi.ended raisedCode_powerDomain _ _
  | armed _ _ => exact hi.armed.ended raisedCode_ok _ _
  | offAlready _ => exact hi.ended raisedCode_ok _ _
  | deferred _ hpanel =>
    refine Inv.ended ?_ raisedCode_ok _ _
    exact { hi with deferredPowered := fun _ => hpanel }
  | tornDown _ hpanel => exact (hi.tornDown hpanel).ended raisedCode_ok _ _
  | refusedOff _ _ => exact hi.ended raisedCode_precondition _ _
  | refusedOn _ _ _ => exact hi.ended raisedCode_precondition _ _
  | waits _ a _ hwait => exact h.powerOnWaits a hwait
  | stillWaits _ a hsp _ => exact h.keepsWaiting (by simp [hsp])
  | coreFailed _ _ _ _ _ _ => exact hi.ended raisedCode_powerDomain _ _
  | cecFailed _ a hsp hno _ _ _ =>
    have hpanel := h.unpowered_of_powerOn hsp hno
    refine Inv.ended ?_ raisedCode_powerDomain _ _
    exact { hi with coreFlag := hpanel.symm }
  | poweredOn _ id a v recs _ _ harmed _ _ hrecs _ =>
    have hw : (replayWrites s.tx recs).hpdIntCtrl = 0x4 ∨ (replayWrites s.tx recs).hpdIntCtrl = 0x6 := by
      rw [hrecs, powerOnRecords_hpdIntCtrl]
      exact ite_watching _
    have hres : reservedZero (replayWrites s.tx recs) := by
      rw [hrecs]
      exact reservedZero_powerOn hi.reserved _ _ _ _ _ _
    exact (hi.poweredUp rfl harmed hw hres a id _ _).ended raisedCode_ok _ _
  | queuedOff hpanel hno => exact (hi.offEnqueued hpanel hno).ended raisedCode_ok _ _
  | nothingOff => exact hi.ended raisedCode_ok _ _
  | resumeWaits => exact h.resumeWaits
  | resumeStillWaits hsp => exact h.keepsWaiting (by simp [hsp])
  | askedConnection =>
    have hbit : s.ts.connectionState.code.setWidth 32 = (0 : Word) ∨ s.ts.connectionState.code.setWidth 32 = (1 : Word) := by
      cases s.ts.connectionState <;> decide
    refine Inv.ended ?_ raisedCode_ok _ _
    exact { hi with dataBit := hbit }
  | askedPower =>
    have hbit : bit s.ts.panelPoweredOn = 0 ∨ bit s.ts.panelPoweredOn = 1 := by cases s.ts.panelPoweredOn <;> decide
    refine Inv.ended ?_ raisedCode_ok _ _
    exact { hi with dataBit := hbit }
  | suspended | resumed | resumeForced _ | rateSet _ =>
    refine Inv.ended ?_ raisedCode_ok _ _
    exact { hi with }

/-- IRQ keeps the invariant. -/
theorem IrqMove.inv (m : IrqMove s t) (h : Inv s) : Inv t := by
  cases m with
  | notEnabled => exact h
  | spurious _ => exact h.traced _
  | acknowledged _ _ => exact h.acknowledged.traced _
  | queued hp hnot => exact (h.hpdEnqueued (h.armed_of_intPending hp) hnot).acknowledged.traced _

/-- WORKER keeps the invariant. -/
theorem WorkerMove.inv (m : WorkerMove s t) (h : Inv s) : Inv t := by
  cases m with
  | nothingQueued _ _ => exact h
  | offGuard q _ hq _ => exact h.hpdDequeued hq
  | sameSample q _ hq hsame =>
    have harmed : s.ts.hpdState ≠ .hpdOff := by
      rw [hsame]
      cases s.sense <;> decide
    exact ((h.hpdDequeued hq).watching harmed (ite_watching _) _).traced _
  | connected q sink recs _ hq hst _ _ =>
    have harmed : s.ts.hpdState ≠ .hpdOff := by rcases hst with e | e <;> simp [e]
    exact { ((h.hpdDequeued hq).watching harmed (.inl rfl) s.intPending).sampled harmed true with }
  | disconnected q _ hq hst _ =>
    have harmed : s.ts.hpdState ≠ .hpdOff := by rcases hst with e | e <;> simp [e]
    exact { ((h.hpdDequeued hq).watching harmed (.inr rfl) s.intPending).sampled harmed false with }
  | offStarts q hstart =>
    obtain ⟨-, -, hrest⟩ := h.pointers
    rcases hstart with ⟨-, hq⟩ | ⟨hp1, -⟩
    · exact (h.offStarted hq).traced _
    · exact absurd hp1 hrest
  | drained hw _ => exact (h.drained hw).traced _
  | nextAttempt hw hlt =>
    obtain ⟨hr1, hr, -, -⟩ := h.counters (.inl hw)
    exact (h.counted ⟨hr1, hr⟩ ⟨by omega, hlt⟩).traced _
  | nextRound hw _ hlt =>
    obtain ⟨-, -, ha1, ha⟩ := h.counters (.inl hw)
    exact (h.counted ⟨by omega, hlt⟩ ⟨le_rfl, ha1.trans ha⟩).traced _
  | drainFailed hw _ _ => exact (h.drained hw).traced _
  | offAndTornDown hw _ => exact ((h.poweredDown hw).tornDown rfl).traced _
  | offAndRearmed hw hno =>
    have harmed := h.poweredArmed (h.powered_of_inPowerOff (by simp [inPowerOff, hw]))
    exact { (h.poweredDown hw).watching harmed (ite_watching _)
        (s.intPending || (if s.ts.connectionState = .connected then !s.sense else s.sense)) with
      deferredPowered := fun hd => by simp [hno] at hd }

/-- Every move keeps the invariant. -/
theorem Move.inv {a : Action} (m : Move s a t) (h : Inv s) : Inv t := by
  cases m with
  | noStep _ => exact h
  | arg0 _ => exact { h with }
  | arg1 _ => exact { h with }
  | arg2 _ => exact { h with }
  | illegal w _ _ _ => exact (h.issued w).idle.ended raisedCode_illegalCommand _ _
  | issued w _ _ _ _ hm => exact hm.inv (h.issued w)
  | powerOnStep _ _ _ hsp hm => exact hm.inv (h.running (by simp [hsp]))
  | resumeStep _ _ hsp hm => exact hm.inv (h.running (by simp [hsp]))
  | irq _ hm => exact hm.inv h
  | worker _ hm => exact hm.inv h
  | setSense level => exact h.lineMoved level

end Moves

/-- Settles O44: a step is a move from the state it prepares, and every move of HOST, IRQ, WORKER and ENV keeps the
invariant. -/
theorem everyStepKeepsTheInvariant : Obligations.EveryStepKeepsTheInvariant := by
  intro s t h hstep
  exact (step_move s t hstep).inv h.prepared

end Sys2Proof.Machine

/-! ## The trace says what became of the registers -/

namespace Sys2Proof.Machine

/-- `t` is `s` after some records, with the registers that replaying those records gives (10_state R30). -/
def Recorded (s t : State) : Prop := ∃ l, t.trace = s.trace ++ l ∧ t.tx = replayWrites s.tx l

section Recording
variable {s t : State}

/-- Nothing recorded, no register changed. -/
theorem Recorded.of_unchanged (htrace : t.trace = s.trace) (htx : t.tx = s.tx) : Recorded s t :=
  ⟨[], by simpa using htrace, htx⟩

/-- The `Done` record that ends a host command writes no register. -/
theorem Recorded.ended {p : State} {recs : List Rec} (op err : Byte) (htrace : p.trace = s.trace)
    (htx : p.tx = replayWrites s.tx recs) : Recorded s (ended op err recs p) := by
  refine ⟨recs ++ [.done op err], ?_, ?_⟩
  · simp [Machine.ended, htrace]
  · simp [Machine.ended, htx, replayWrites_append, replayWrites]

/-- HOST's commands. -/
theorem HostMove.recorded {i : Instr} (m : HostMove s i t) : Recorded s t := by
  cases m with
  | waits | stillWaits | resumeWaits | resumeStillWaits => exact .of_unchanged rfl rfl
  | _ => exact .ended _ _ rfl rfl

/-- IRQ's handler. -/
theorem IrqMove.recorded (m : IrqMove s t) : Recorded s t := by
  cases m with
  | notEnabled => exact .of_unchanged rfl rfl
  | spurious | acknowledged | queued => exact ⟨_, rfl, rfl⟩

/-- WORKER's tasks. -/
theorem WorkerMove.recorded (m : WorkerMove s t) : Recorded s t := by
  cases m with
  | nothingQueued | offGuard => exact .of_unchanged rfl rfl
  | connected q sink recs _ _ _ _ hsink =>
    refine ⟨[Rec.regRead 0x0C (hpdIntStatusWord s), Rec.regWrite 0x04 0x4] ++ recs ++ [Rec.connChanged .connected], ?_, ?_⟩
    · simp
    · rcases hsink with ⟨-, rfl⟩ | ⟨-, -, rfl⟩ <;> rfl
  | _ => exact ⟨_, rfl, rfl⟩

/-- Every move. -/
theorem Move.recorded {a : Action} (m : Move s a t) : Recorded s t := by
  cases m with
  | noStep | arg0 | arg1 | arg2 | setSense => exact .of_unchanged rfl rfl
  | illegal => exact .ended _ _ rfl rfl
  | issued _ _ _ _ _ hm => exact hm.recorded
  | powerOnStep _ _ _ _ hm | resumeStep _ _ _ hm | irq _ hm | worker _ hm => exact hm.recorded

end Recording

/-- Settles O45: a step is a move from the state it prepares, and no move touches a register without its record. -/
theorem traceRecordsEveryRegisterChange : Obligations.TraceRecordsEveryRegisterChange := by
  intro s t hstep
  exact (step_move s t hstep).recorded

/-! ## Who writes the tables, the ARG registers and `TransmitterState` -/

/-- The configuration and the ARG registers are as they were. -/
structure KeepsArguments (s t : State) : Prop where
  cfg : t.cfg = s.cfg
  arg0 : t.arg0 = s.arg0
  arg1 : t.arg1 = s.arg1
  arg2 : t.arg2 = s.arg2

/-- No table is written, and an ARG register only where `a` is HOST's write of its value to its offset (20_memory R41). -/
def ArgumentsOnlyBy (a : Action) (s t : State) : Prop :=
  t.cfg = s.cfg ∧
  (t.arg0 = s.arg0 ∨ a = .hostWrite 0x04 t.arg0) ∧
  (t.arg1 = s.arg1 ∨ a = .hostWrite 0x08 t.arg1) ∧
  (t.arg2 = s.arg2 ∨ a = .hostWrite 0x0C t.arg2)

/-- The fields of `TransmitterState` that WORKER does not write are as they were (10_state R13). -/
structure KeepsHostFields (s t : State) : Prop where
  suspended : t.ts.panelSuspended = s.ts.panelSuspended
  format : t.ts.activeFormat = s.ts.activeFormat
  rate : t.ts.audioSampleRate = s.ts.audioSampleRate
  xres : t.ts.xres = s.ts.xres
  yres : t.ts.yres = s.ts.yres
  frameRate : t.ts.frameRate = s.ts.frameRate

/-- What of `TransmitterState` only WORKER writes is as it was: the connection state, and a deferred disable, which others
may set but not clear (10_state R13). -/
structure KeepsWorkerFields (s t : State) : Prop where
  connection : t.ts.connectionState = s.ts.connectionState
  deferred : s.ts.hotplugOffPending = true → t.ts.hotplugOffPending = true

section Writers
variable {s t : State}

/-- Where `TransmitterState` is as it was, so are WORKER's fields. -/
theorem KeepsWorkerFields.of_ts_eq (h : t.ts = s.ts) : KeepsWorkerFields s t := by
  constructor <;> simp [h]

/-- No command writes an ARG register: its operands are read at the write of CMD (30_encoding R67). -/
theorem HostMove.keepsArguments {i : Instr} (m : HostMove s i t) : KeepsArguments s t := by
  cases m <;> exact ⟨rfl, rfl, rfl, rfl⟩

/-- IRQ has no access to the host port (20_memory R41). -/
theorem IrqMove.keepsArguments (m : IrqMove s t) : KeepsArguments s t := by
  cases m <;> exact ⟨rfl, rfl, rfl, rfl⟩

/-- WORKER has no access to the host port (20_memory R41). -/
theorem WorkerMove.keepsArguments (m : WorkerMove s t) : KeepsArguments s t := by
  cases m <;> exact ⟨rfl, rfl, rfl, rfl⟩

/-- What keeps the tables and the ARG registers writes none, whatever the action. -/
theorem KeepsArguments.argumentsOnlyBy (h : KeepsArguments s t) (a : Action) : ArgumentsOnlyBy a s t :=
  ⟨h.cfg, .inl h.arg0, .inl h.arg1, .inl h.arg2⟩

/-- A move writes no table, and an ARG register only where it is HOST's write of it. -/
theorem Move.argumentsOnlyBy {a : Action} (m : Move s a t) : ArgumentsOnlyBy a s t := by
  cases m with
  | arg0 _ => exact ⟨rfl, .inr rfl, .inl rfl, .inl rfl⟩
  | arg1 _ => exact ⟨rfl, .inl rfl, .inr rfl, .inl rfl⟩
  | arg2 _ => exact ⟨rfl, .inl rfl, .inl rfl, .inr rfl⟩
  | noStep | illegal | setSense => exact ⟨rfl, .inl rfl, .inl rfl, .inl rfl⟩
  | issued _ _ _ _ _ hm =>
    obtain ⟨hcfg, h0, h1, h2⟩ := hm.keepsArguments
    exact ⟨hcfg, .inl h0, .inl h1, .inl h2⟩
  | powerOnStep _ _ _ _ hm | resumeStep _ _ _ hm | irq _ hm | worker _ hm => exact hm.keepsArguments.argumentsOnlyBy _

/-- HOST's commands leave WORKER's fields: SET_HPD 0 may set a deferred disable, none clears it. -/
theorem HostMove.keepsWorkerFields {i : Instr} (m : HostMove s i t) : KeepsWorkerFields s t := by
  cases m with
  | deferred => exact ⟨rfl, fun _ => rfl⟩
  | _ => exact ⟨rfl, id⟩

/-- The interrupt handler writes nothing of `TransmitterState` (40_hotplug_fsm R85). -/
theorem IrqMove.ts_eq (m : IrqMove s t) : t.ts = s.ts := by
  cases m <;> rfl

/-- WORKER's tasks leave HOST's fields. -/
theorem WorkerMove.keepsHostFields (m : WorkerMove s t) : KeepsHostFields s t := by
  cases m <;> exact ⟨rfl, rfl, rfl, rfl, rfl, rfl⟩

/-- A move of WORKER leaves HOST's fields. -/
theorem Move.keepsHostFields (m : Move s .worker t) : KeepsHostFields s t := by
  cases m with
  | noStep => exact ⟨rfl, rfl, rfl, rfl, rfl, rfl⟩
  | worker _ hm => exact hm.keepsHostFields

/-- A move of another agent leaves WORKER's fields. -/
theorem Move.keepsWorkerFields {a : Action} (m : Move s a t) (ha : a ≠ .worker) : KeepsWorkerFields s t := by
  cases m with
  | noStep | arg0 | arg1 | arg2 | illegal | setSense => exact .of_ts_eq rfl
  | issued _ _ _ _ _ hm =>
    have h := hm.keepsWorkerFields
    exact ⟨h.connection, h.deferred⟩
  | powerOnStep _ _ _ _ hm | resumeStep _ _ _ hm => exact hm.keepsWorkerFields
  | irq _ hm => exact .of_ts_eq hm.ts_eq
  | worker => exact absurd rfl ha

/-- IRQ and ENV leave all of `TransmitterState`. -/
theorem Move.ts_eq {a : Action} (m : Move s a t) (ha : a = .irq ∨ ∃ level, a = .setSense level) : t.ts = s.ts := by
  rcases ha with rfl | ⟨level, rfl⟩
  · cases m with
    | noStep => rfl
    | irq _ hm => exact hm.ts_eq
  · cases m <;> rfl

end Writers

/-- Settles O51: a step is a move, and a move writes an ARG register only as HOST's write of it. -/
theorem tablesAndArgumentsAreNotWritten : Obligations.TablesAndArgumentsAreNotWritten := by
  intro s t hstep
  exact (step_move s t hstep).argumentsOnlyBy

/-- Settles O53: a step is a move, and each agent's moves leave the fields its column of the table does not name. -/
theorem fieldsHaveTheirWriters : Obligations.FieldsHaveTheirWriters := by
  intro s t hstep
  have m := step_move s t hstep
  refine ⟨fun ha => ?_, fun ha => ?_, m.ts_eq⟩
  · obtain ⟨hsuspended, hformat, hrate, hx, hy, hf⟩ := (ha ▸ m).keepsHostFields
    exact ⟨hsuspended, hformat, hrate, hx, hy, hf⟩
  · obtain ⟨hconnection, hdeferred⟩ := m.keepsWorkerFields ha
    exact ⟨hconnection, hdeferred⟩

/-! ## Which operation an agent's step runs -/

/-- A step whose stimulus stands on the agenda is that stimulus's move, with its answers in place (20_memory R50). -/
theorem step_of_agenda {s : State} {a : Action} {d : Draws} {rest : List Stimulus} (h : s.agenda = ⟨a, d⟩ :: rest) :
    step s = act a { s with agenda := rest, tick := s.tick + 1, draws := d } := by
  simp [step, takeStep, prepare, nextStimulus, h]

/-- Settles O5: the step is the agent's move, and the pointer of the agent and the head of the queue pick the operation. -/
theorem agentsTakeTheirNextStep : Obligations.AgentsTakeTheirNextStep := by
  rintro s p d rest rfl
  refine ⟨fun ha hsp => ?_, fun lbl a ha hsp => ?_, fun lbl ha hsp => ?_, fun ha => step_of_agenda ha,
    fun lbl ha hsp => ?_, fun q ha hsp hq => ?_, fun q ha hsp hq => ?_, fun ha hsp hq => ?_⟩
  · simp [step_of_agenda ha, act, hostStep, hsp]
  · simp [step_of_agenda ha, act, hostStep, hsp]
  · simp [step_of_agenda ha, act, hostStep, hsp]
  · simp [step_of_agenda ha, act, workerStep, hsp]
  · simp [step_of_agenda ha, act, workerStep, hsp, hq]
  · simp [step_of_agenda ha, act, workerStep, hsp, hq]
  · simp [step_of_agenda ha, act, workerStep, hsp, hq]

/-! ## Reset -/

/-- The reset values of 00_scope R5 for the audio rate and the sink information. -/
theorem resetParameters_of_fixedOk {c : Config} (h : c.fixedOk = true) :
    c.audioRateReset = .r48k ∧ c.sinkInfoReset = ⟨true, 0⟩ := by
  simp only [Config.fixedOk, Bool.and_eq_true, decide_eq_true_eq] at h
  tauto

/-- Every transmitter register is 0 after reset (10_state R33). -/
theorem resetWith_tx_get (c : Config) (r : TxReg) : (State.resetWith c).tx.get r = 0 := by
  cases r <;> rfl

/-- RESULT reads 0 after reset: no error, not BUSY (10_state R11, R33). -/
theorem resetWith_result (c : Config) : hpRead 0x10 (State.resetWith c) = 0 :=
  (by decide : (0 : Byte).setWidth 32 ||| (bit false <<< 8) = 0)

/-- Settles O42: each row is a field of `State.resetWith`. -/
theorem resetLeavesTheTabledValues : Obligations.ResetLeavesTheTabledValues := by
  intro c
  exact ⟨rfl, rfl, rfl, rfl, rfl, rfl, rfl, rfl, rfl, rfl, rfl, rfl, rfl, rfl, rfl, rfl, resetWith_result c, rfl,
    resetWith_tx_get c, rfl, rfl, resetParameters_of_fixedOk⟩

/-- The engine is off and idle with nothing pending or queued, so each clause of the invariant holds. -/
theorem inv_resetWith (c : Config) (h : c.fixedOk = true) : Inv (State.resetWith c) where
  fixed := h
  poweredArmed := nofun
  connection := ⟨nofun, nofun⟩
  deferredPowered := nofun
  pendingPowered := nofun
  coreFlag := rfl
  cecFlag := rfl
  hotplugFlag := rfl
  delivery := (by decide : intEnBit 0x0 = false)
  pendingEnabled := nofun
  queueNodup := .nil
  hpdQueued := ⟨nofun, nofun⟩
  offQuiet := fun _ => rfl
  offQueued := by simp [inPowerOff, State.resetWith]
  offOnce := fun _ => nofun
  busyInFlight := by simp [State.resetWith]
  waiting := nofun
  counters := by simp [countersInRange, State.resetWith]
  pointers := ⟨nofun, nofun, nofun⟩
  dataBit := .inl rfl
  errCode := raisedCode_ok
  reserved := fun r => by simp [resetWith_tx_get]

/-- Settles O43, with the reference configuration's parameters at their fixed values. -/
theorem invariantHoldsAtReset : Obligations.InvariantHoldsAtReset :=
  ⟨inv_resetWith, inv_resetWith _ (by decide)⟩

/-! ## The stale connection state

While hot-plug is off, an operation gives the same answer for either value of the stored connection state: first said of each
operation that a step can run, then of the agents' moves. -/

/-- `s` with another value stored as its connection state. -/
def withConnection (c : Connection) (s : State) : State :=
  { s with ts := { s.ts with connectionState := c } }

/-- From `s`, `f` does the same for the connection state `c` as for the stored one, and leaves either as it is. -/
def IgnoresConnection (c : Connection) (f : State → Outcome) (s : State) : Prop :=
  ∀ t, f s = .next t → f (withConnection c s) = .next (withConnection c t)

/-- A chain of tests that gives what its first answer is not goes on. -/
theorem else_of_ite_eq {α : Type} {p : Prop} [Decidable p] {a b x : α} (h : (if p then a else b) = x) (ha : a ≠ x) : b = x :=
  ((ite_eq_iff.1 h).resolve_left fun hp => ha hp.2).2

/-- A format without operand accepts only words that are the id alone (30_encoding R61). -/
theorem decodeN_eq_ok {w : Word} {i j : Instr} (h : decodeN w i = .ok j) : i = j ∧ w.toNat = (cmdOp w).toNat := by
  unfold decodeN at h
  split at h
  · cases h
  · next hlow =>
    cases h
    have hlt : w.toNat < 2 ^ 8 := (maskedOff_iff w 8 (by omega)).1 (not_not.1 hlow)
    refine ⟨rfl, ?_⟩
    simp only [cmdOp, BitVec.extractLsb'_toNat, Nat.shiftRight_zero, Nat.mod_eq_of_lt hlt]

/-- QUERY_CONN has one word (30_encoding R63). -/
theorem decode_eq_queryConn {w : Word} (h : decode w = .ok .queryConn) : w = 0x6 := by
  have hB : decodeB w ≠ .ok .queryConn := by unfold decodeB; split <;> [nofun; (split <;> nofun)]
  have hP : decodeP w ≠ .ok .queryConn := by unfold decodeP; split <;> nofun
  have hR : decodeR w ≠ .ok .queryConn := by
    unfold decodeR
    split
    · nofun
    · split <;> nofun
  have hN (i : Instr) (hi : i ≠ .queryConn) : decodeN w i ≠ .ok .queryConn := fun h => hi (decodeN_eq_ok h).1
  unfold decode at h
  dsimp only at h
  have h := else_of_ite_eq h hB
  have h := else_of_ite_eq h hP
  have h := else_of_ite_eq h (hN .powerOff nofun)
  have h := else_of_ite_eq h (hN .suspend nofun)
  have h := else_of_ite_eq h (hN .resume nofun)
  rcases ite_eq_iff.1 h with ⟨hid, hdec⟩ | ⟨-, h⟩
  · have hnat := (decodeN_eq_ok hdec).2
    rw [hid] at hnat
    exact BitVec.eq_of_toNat_eq hnat
  · have h := else_of_ite_eq h (hN .queryPower nofun)
    have h := else_of_ite_eq h hR
    split at h <;> cases h

section Stale
variable {c : Connection} {s : State}

/-- An operation that always answers a state ignores the connection state where it commutes with a change of it. -/
theorem IgnoresConnection.of_commutes {f : State → State} (h : f (withConnection c s) = withConnection c (f s)) :
    IgnoresConnection c (fun s => .next (f s)) s := by
  rintro t ⟨⟩
  exact congrArg _ h

/-- The hot-plug state is another field. -/
theorem withConnection_hpdState (hoff : s.ts.hpdState = .hpdOff) : (withConnection c s).ts.hpdState = .hpdOff := hoff

/-- SET_HPD 1 arms without a look at the connection state (40_hotplug_fsm R81). -/
theorem setHpd1_withConnection : setHpd1 (withConnection c s) = withConnection c (setHpd1 s) := by
  unfold setHpd1
  simp only [apply_ite (withConnection c)]
  rfl

/-- SET_HPD 0 does nothing while off (40_hotplug_fsm R82). -/
theorem setHpd0_withConnection (hoff : s.ts.hpdState = .hpdOff) :
    setHpd0 (withConnection c s) = withConnection c (setHpd0 s) := by
  simp only [setHpd0, hoff, withConnection_hpdState, if_true]
  rfl

/-- While off, POWER_ON fails the armed check of either step or goes on waiting (41_power_sequencer R100). -/
theorem powerOn_withConnection (fmt : FormatId) (hoff : s.ts.hpdState = .hpdOff) :
    powerOn fmt (withConnection c s) = withConnection c (powerOn fmt s) := by
  have hsp : (withConnection c s).spHost = s.spHost := rfl
  simp only [powerOn, powerOnW, powerOnB, hoff, withConnection_hpdState, hsp, if_true]
  split
  · rw [apply_ite (withConnection c)]
    rfl
  all_goals rfl

/-- POWER_OFF looks at the panel and the pending power-off only (41_power_sequencer R101). -/
theorem powerOff_withConnection : powerOff (withConnection c s) = withConnection c (powerOff s) := by
  unfold powerOff
  rw [apply_ite (withConnection c)]
  rfl

/-- RESUME forces no publication while off (40_hotplug_fsm R89). -/
theorem resume_withConnection (hoff : s.ts.hpdState = .hpdOff) :
    resume (withConnection c s) = withConnection c (resume s) := by
  have hforces (p : State) (hp : p.ts.hpdState = .hpdOff) : resumeForces p = false := by simp [resumeForces, hp]
  simp only [resume, resumeW, resumeB, hforces, hoff, withConnection_hpdState, or_true, if_true, Bool.false_eq_true, if_false,
    apply_ite (withConnection c)]
  rfl

/-- CONN_IRQ reads nothing of `TransmitterState` (40_hotplug_fsm R85). -/
theorem execConnIrq_ignoresConnection : IgnoresConnection c execConnIrq s := by
  refine .of_commutes ?_
  unfold connIrq scheduleHpdTask
  simp only [apply_ite (withConnection c)]
  rfl

/-- HPD_TASK stops at its guard while off (40_hotplug_fsm R86). -/
theorem execHpdTask_ignoresConnection (hoff : s.ts.hpdState = .hpdOff) : IgnoresConnection c execHpdTask s := by
  refine .of_commutes ?_
  simp only [hpdTask, hoff, withConnection_hpdState, if_true, apply_ite (withConnection c)]
  rfl

/-- Where WORKER is idle, POWEROFF_TASK takes its step P1 or none. -/
theorem execPowerOffTask_ignoresConnection (hidle : s.spWorker = .idle) : IgnoresConnection c execPowerOffTask s := by
  refine .of_commutes ?_
  have hidle' : (withConnection c s).spWorker = .idle := hidle
  simp only [powerOffTask, hidle, hidle', apply_ite (withConnection c)]
  rfl

/-- A command other than QUERY_CONN. -/
theorem command_ignoresConnection {w : Word} {i : Instr} (hd : decode w = .ok i) (hi : i ≠ .queryConn)
    (hoff : s.ts.hpdState = .hpdOff) : IgnoresConnection c (exec i) s := by
  cases i with
  | setHpd1 => exact .of_commutes setHpd1_withConnection
  | setHpd0 => exact .of_commutes (setHpd0_withConnection hoff)
  | powerOn fmt => exact .of_commutes (powerOn_withConnection fmt hoff)
  | powerOff => exact .of_commutes powerOff_withConnection
  | resume => exact .of_commutes (resume_withConnection hoff)
  | suspend | queryPower | setAudioRate _ => exact .of_commutes rfl
  | queryConn => exact absurd rfl hi
  | _ => exact absurd (decode_encodes w _ hd) (by simp [encode])

/-- A write of CMD but that of QUERY_CONN. -/
theorem writeCmd_ignoresConnection {w : Word} (hw : w ≠ 0x6) (hoff : s.ts.hpdState = .hpdOff) :
    IgnoresConnection c (writeCmd w) s := by
  have hbusy : (withConnection c s).busy = s.busy := rfl
  simp only [IgnoresConnection, writeCmd, hbusy]
  split
  · exact IgnoresConnection.of_commutes (f := id) rfl
  · split
    · next i hd =>
      have hi : i ≠ .queryConn := by
        rintro rfl
        exact hw (decode_eq_queryConn hd)
      exact command_ignoresConnection (s := { s with cmd := w, busy := true }) hd hi hoff
    · exact IgnoresConnection.of_commutes (f := fun s => illegalCommand w { s with cmd := w, busy := true }) rfl

/-- Only offset 0 is CMD's (20_memory R41). -/
theorem hpReg_eq_cmd {offset : Nat} (h : hpReg offset = some .cmd) : offset = 0x00 := by
  unfold hpReg at h
  grind

/-- A write of the host port but that of QUERY_CONN's word to CMD. -/
theorem hostWrite_ignoresConnection {offset : Nat} {v : Word} (hne : Action.hostWrite offset v ≠ .hostWrite 0x00 0x6)
    (hoff : s.ts.hpdState = .hpdOff) : IgnoresConnection c (hostWrite offset v) s := by
  unfold hostWrite
  split
  · next hcmd =>
    exact writeCmd_ignoresConnection (fun hv => hne (by rw [hpReg_eq_cmd hcmd, hv])) hoff
  all_goals exact .of_commutes rfl

/-- HOST's pending step. -/
theorem hostStep_ignoresConnection (hoff : s.ts.hpdState = .hpdOff) : IgnoresConnection c hostStep s := by
  have hsp : (withConnection c s).spHost = s.spHost := rfl
  unfold IgnoresConnection hostStep
  rw [hsp]
  cases s.spHost with
  | idle => exact IgnoresConnection.of_commutes (f := id) rfl
  | powerOn _ a => exact IgnoresConnection.of_commutes (powerOn_withConnection a.fmt hoff)
  | resume _ => exact IgnoresConnection.of_commutes (resume_withConnection hoff)

/-- A step of an idle WORKER. -/
theorem workerStep_ignoresConnection (hidle : s.spWorker = .idle) (hoff : s.ts.hpdState = .hpdOff) :
    IgnoresConnection c workerStep s := by
  have hidle' : (withConnection c s).spWorker = .idle := hidle
  have hwq : (withConnection c s).wq = s.wq := rfl
  simp only [IgnoresConnection, workerStep, hidle, hidle', hwq]
  split
  · exact execHpdTask_ignoresConnection hoff
  · exact execPowerOffTask_ignoresConnection hidle
  · exact IgnoresConnection.of_commutes (f := id) rfl

/-- WORKER is idle while hot-plug is off: a power-off that runs has a powered, so an armed, panel (10_state R15). -/
theorem Inv.workerIdle_of_hpdOff (h : Inv s) (hoff : s.ts.hpdState = .hpdOff) : s.spWorker = .idle := by
  by_contra hin
  exact h.poweredArmed (h.powered_of_inPowerOff hin) hoff

/-- Every move but the write of QUERY_CONN. -/
theorem act_ignoresConnection {a : Action} (h : Inv s) (hoff : s.ts.hpdState = .hpdOff) (hne : a ≠ .hostWrite 0x00 0x6) :
    IgnoresConnection c (act a) s := by
  cases a with
  | hostWrite offset v => exact hostWrite_ignoresConnection hne hoff
  | hostRead offset => exact .of_commutes (f := id) rfl
  | hostStep => exact hostStep_ignoresConnection hoff
  | irq => exact execConnIrq_ignoresConnection
  | worker => exact workerStep_ignoresConnection (h.workerIdle_of_hpdOff hoff) hoff
  | setSense level => exact .of_commutes (f := changeSense level) rfl

end Stale

/-- Settles O50: the two states take one stimulus, and its move ignores the connection state. -/
theorem staleConnectionIsNotActedUpon : Obligations.StaleConnectionIsNotActedUpon := by
  intro s t c h hoff hne hstep
  exact act_ignoresConnection h.prepared hoff hne t hstep

end Sys2Proof.Machine

/-! ## The host port

What HOST reads and writes at each offset of its port, the misaligned and unmapped ones included (20_memory R41, R45). -/

namespace Sys2Proof.Machine

/-- RESULT read as a number: ERR in the low byte, BUSY at bit 8 (10_state R11). -/
theorem resultWord_toNat (s : State) : (resultWord s).toNat = s.err.toNat + (if s.busy then 256 else 0) := by
  have hbusy : (bit s.busy <<< 8).toNat = (if s.busy then 1 else 0) <<< 8 := by cases s.busy <;> rfl
  have herr := s.err.isLt
  rw [resultWord, BitVec.toNat_or, BitVec.toNat_setWidth, Nat.mod_eq_of_lt (by omega), hbusy, or_shift herr]
  cases s.busy <;> rfl

/-- Settles O8: each offset names its register, and the step is the access to it. -/
theorem hostPortReadsAndWrites : Obligations.HostPortReadsAndWrites := by
  intro s
  refine ⟨rfl, rfl, rfl, rfl, resultWord_toNat s, rfl, ?_⟩
  rintro p v d rest rfl
  exact ⟨step_of_agenda, step_of_agenda, step_of_agenda, step_of_agenda, step_of_agenda, fun _ => step_of_agenda⟩

/-- No register of the port is at a misaligned offset or past RDATA (20_memory R45). -/
theorem hpReg_eq_none {offset : Nat} (h : offset % 4 ≠ 0 ∨ 0x18 ≤ offset) : hpReg offset = none := by
  unfold hpReg
  repeat rw [if_neg (by omega)]

/-! ## The offsets of the transmitter accesses

A register access that a step records is at an offset of the TX map: first said of the records of POWER_ON, then of each
move (20_memory R45). -/

/-- A record that is no register access, or one at an aligned offset inside the TX map. -/
@[simp] def MappedAccess : Rec → Prop
  | .regWrite offset _ | .regRead offset _ => offset % 4 = 0 ∧ offset ≤ 0x88
  | .callEnable _ _ | .callDisable _ | .callResetPhysicalLayer | .callInitializePhysicalLayer | .callPowerDownPhysicalLayer
  | .callReadSinkDescriptor _ | .connChanged _ | .audioChanged _ | .report _ | .done _ _ => True

/-- `t` is `s` after records whose register accesses are all inside the TX map. -/
def AddsMapped (s t : State) : Prop := ∃ l, t.trace = s.trace ++ l ∧ ∀ r ∈ l, MappedAccess r

section Offsets
variable {s t : State}

/-- The registers of the map are at its offsets. -/
theorem LinkRecord.mapped {r : Rec} (h : LinkRecord r) : MappedAccess r := by
  cases h with
  | write q _ _ => exact q.offset_aligned
  | unsupported | audioOn => trivial

/-- The records of a successful POWER_ON (41_power_sequencer R100). -/
theorem powerOnRecords_mapped (c : Config) (id : FormatId) (t : VideoTiming) (rate : SampleRate) (sink : SinkInfo)
    (connection : Connection) : ∀ r ∈ powerOnRecords c id t rate sink connection, MappedAccess r := by
  obtain ⟨l, hl, hlink⟩ := powerOnRecords_link c id t rate sink connection
  simpa [hl] using fun r hr => (hlink r hr).mapped

/-- Nothing recorded. -/
theorem AddsMapped.of_trace_eq (h : t.trace = s.trace) : AddsMapped s t := ⟨[], by simpa using h, by simp⟩

/-- The `Done` record that ends a host command is no register access. -/
theorem AddsMapped.ended {p : State} {recs : List Rec} (op err : Byte) (htrace : p.trace = s.trace)
    (h : ∀ r ∈ recs, MappedAccess r) : AddsMapped s (ended op err recs p) := by
  refine ⟨recs ++ [.done op err], ?_, ?_⟩
  · simp [Machine.ended, htrace]
  · simpa [or_imp, forall_and] using h

/-- HOST's commands. -/
theorem HostMove.addsMapped {i : Instr} (m : HostMove s i t) : AddsMapped s t := by
  cases m with
  | waits | stillWaits | resumeWaits | resumeStillWaits => exact .of_trace_eq rfl
  | poweredOn _ id a timing recs _ _ _ _ _ hrecs => exact .ended _ _ rfl (hrecs ▸ powerOnRecords_mapped _ _ _ _ _ _)
  | _ => exact .ended _ _ rfl (by simp)

/-- IRQ's handler. -/
theorem IrqMove.addsMapped (m : IrqMove s t) : AddsMapped s t := by
  cases m with
  | notEnabled => exact .of_trace_eq rfl
  | spurious | acknowledged | queued => exact ⟨_, rfl, by simp⟩

/-- WORKER's tasks. -/
theorem WorkerMove.addsMapped (m : WorkerMove s t) : AddsMapped s t := by
  cases m with
  | nothingQueued | offGuard => exact .of_trace_eq rfl
  | connected q sink recs _ _ _ _ hsink =>
    refine ⟨[Rec.regRead 0x0C (hpdIntStatusWord s), Rec.regWrite 0x04 0x4] ++ recs ++ [Rec.connChanged .connected], ?_, ?_⟩
    · simp
    · rcases hsink with ⟨-, rfl⟩ | ⟨-, -, rfl⟩ <;> simp
  | _ => exact ⟨_, rfl, by simp⟩

/-- Every move. -/
theorem Move.addsMapped {a : Action} (m : Move s a t) : AddsMapped s t := by
  cases m with
  | noStep | arg0 | arg1 | arg2 | setSense => exact .of_trace_eq rfl
  | illegal => exact .ended _ _ rfl (by simp)
  | issued _ _ _ _ _ hm => exact hm.addsMapped
  | powerOnStep _ _ _ _ hm | resumeStep _ _ _ hm | irq _ hm | worker _ hm => exact hm.addsMapped

/-- The records a step adds hold no register access outside the TX map. -/
theorem step_accesses_mapped (hstep : step s = .next t) {l : List Rec} (hl : t.trace = s.trace ++ l) :
    ∀ r ∈ l, MappedAccess r := by
  obtain ⟨added, hadded, hmapped⟩ := (step_move s t hstep).addsMapped
  have heq : l = added := List.append_cancel_left (hl.symm.trans hadded)
  exact heq ▸ hmapped

end Offsets

/-- Settles O7: the port has no register at a bad offset, and a step is a move, whose accesses are inside the TX map. -/
theorem badOffsetsAreRefused : Obligations.BadOffsetsAreRefused := by
  refine ⟨fun s offset hbad => ?_, fun s offset v d rest hagenda hbad => ?_, fun s t l offset v hstep hl haccess => ?_⟩
  · simp [hpRead, hpReg_eq_none hbad]
  · simp [step_of_agenda hagenda, act, hostWrite, hpReg_eq_none hbad]
  · rcases haccess with hmem | hmem
    · exact step_accesses_mapped hstep hl _ hmem
    · exact step_accesses_mapped hstep hl _ hmem

end Sys2Proof.Machine

/-! ## The command word

Each field of a command word, and each test of the decoder, read as arithmetic on the word (30_encoding R61 to R63, R67,
R68). Decoding and encoding are then one relation between words and operations. -/

namespace Sys2Proof.Machine

section CommandWord
variable {w : Word} {i : Instr}

/-- `CMD[7:0]` as a number. -/
theorem cmdOp_toNat (w : Word) : (cmdOp w).toNat = w.toNat % 256 := by
  simp [cmdOp]

/-- `CMD[8]` as a number. -/
theorem cmdFlag_iff (w : Word) : cmdFlag w = true ↔ w.toNat / 256 % 2 = 1 := by
  simp [cmdFlag, BitVec.getLsbD, Nat.testBit_eq_decide_div_mod_eq]

/-- `CMD[15:8]` as a number. -/
theorem cmdFmt_toNat (w : Word) : (cmdFmt w).toNat = w.toNat / 256 % 256 := by
  simp [cmdFmt, Nat.shiftRight_eq_div_pow]

/-- `CMD[10:8]` as a number. -/
theorem cmdRate_toNat (w : Word) : (cmdRate w).toNat = w.toNat / 256 % 8 := by
  simp [cmdRate, Nat.shiftRight_eq_div_pow]

/-- The codes of the rates and the rates of the codes agree (10_state R34). -/
theorem sampleRate_ofCode_eq_some_iff {c : BitVec 3} {r : SampleRate} : SampleRate.ofCode c = some r ↔ r.code = c := by
  revert c
  cases r <;> decide

/-- Every code but 7 names a rate (10_state R34). -/
theorem exists_sampleRate_code_eq {c : BitVec 3} (h : c.toNat ≠ 7) : ∃ r : SampleRate, r.code = c := by
  cases hr : SampleRate.ofCode c with
  | some r => exact ⟨r, sampleRate_ofCode_eq_some_iff.1 hr⟩
  | none =>
    refine absurd hr ?_
    revert c
    decide

/-- No rate has code 7 (10_state R34). -/
theorem sampleRate_code_lt (r : SampleRate) : r.code.toNat < 7 := by
  cases r <;> decide

/-! ### The words of the encoder -/

/-- The word of POWER_ON, the format in `CMD[15:8]` (30_encoding R62). -/
theorem powerOnWord_toNat (fmt : FormatId) :
    ((0x00000002 : Word) ||| (fmt.setWidth 32 <<< 8)).toNat = 2 + fmt.toNat * 256 := by
  rw [BitVec.toNat_or, byte_shift_toNat fmt 8 (by decide)]
  exact or_shift (i := 8) (by decide) fmt.toNat

/-- The word of SET_AUDIO_RATE, the rate's code in `CMD[10:8]` (30_encoding R62). -/
theorem audioRateWord_toNat (rate : SampleRate) :
    ((0x00000008 : Word) ||| (rate.code.setWidth 32 <<< 8)).toNat = 8 + 256 * rate.code.toNat := by
  cases rate <;> rfl

/-- An operation with a word is encoded by the one word of that number. -/
theorem encode_eq_some_iff (v : Word) (h : encode i = some v) : encode i = some w ↔ w.toNat = v.toNat := by
  rw [h, Option.some_inj, eq_comm, BitVec.toNat_eq]

/-- POWER_ON's word by its number. -/
theorem encode_powerOn_iff {fmt : FormatId} : encode (.powerOn fmt) = some w ↔ w.toNat = 2 + fmt.toNat * 256 := by
  rw [← powerOnWord_toNat]
  exact encode_eq_some_iff _ rfl

/-- SET_AUDIO_RATE's word by its number. -/
theorem encode_setAudioRate_iff {r : SampleRate} :
    encode (.setAudioRate r) = some w ↔ w.toNat = 8 + 256 * r.code.toNat := by
  rw [← audioRateWord_toNat]
  exact encode_eq_some_iff _ rfl

/-- The words with an encoding are the legal ones: the table of 30_encoding R63 read as arithmetic. -/
theorem exists_encode_iff : (∃ i, encode i = some w) ↔ legalCommandWord w := by
  constructor
  · rintro ⟨i, h⟩
    unfold legalCommandWord
    cases i with
    | powerOn fmt =>
      have := fmt.isLt
      have := encode_powerOn_iff.1 h
      omega
    | setAudioRate r =>
      have := sampleRate_code_lt r
      have := encode_setAudioRate_iff.1 h
      omega
    | setHpd1 | setHpd0 | powerOff | suspend | resume | queryConn | queryPower => cases h; decide
    | _ => cases h
  · rintro (⟨hop, hbits⟩ | ⟨hop, hbits⟩ | ⟨hlow, hhigh, hbits⟩ | ⟨hop, hbits, hrate⟩)
    · obtain hw | hw : w.toNat = 1 ∨ w.toNat = 0x101 := by omega
      · exact ⟨.setHpd0, (encode_eq_some_iff 1 rfl).2 hw⟩
      · exact ⟨.setHpd1, (encode_eq_some_iff 0x101 rfl).2 hw⟩
    · refine ⟨.powerOn (cmdFmt w), encode_powerOn_iff.2 ?_⟩
      rw [cmdFmt_toNat]
      omega
    · obtain hw | hw | hw | hw | hw : w.toNat = 3 ∨ w.toNat = 4 ∨ w.toNat = 5 ∨ w.toNat = 6 ∨ w.toNat = 7 := by omega
      · exact ⟨.powerOff, (encode_eq_some_iff 3 rfl).2 hw⟩
      · exact ⟨.suspend, (encode_eq_some_iff 4 rfl).2 hw⟩
      · exact ⟨.resume, (encode_eq_some_iff 5 rfl).2 hw⟩
      · exact ⟨.queryConn, (encode_eq_some_iff 6 rfl).2 hw⟩
      · exact ⟨.queryPower, (encode_eq_some_iff 7 rfl).2 hw⟩
    · have hcode := cmdRate_toNat w
      obtain ⟨r, hr⟩ := exists_sampleRate_code_eq (c := cmdRate w) (by omega)
      refine ⟨.setAudioRate r, encode_setAudioRate_iff.2 ?_⟩
      rw [hr]
      omega

/-! ### The formats of the decoder -/

/-- Format B accepts the words of 9 bits and takes the flag (30_encoding R61). -/
theorem decodeB_ok_iff :
    decodeB w = .ok i ↔ w.toNat < 512 ∧ i = if w.toNat / 256 % 2 = 1 then .setHpd1 else .setHpd0 := by
  have hmask := maskedOff_iff w 9 (by decide)
  have hflag := cmdFlag_iff w
  unfold decodeB
  grind

/-- Format P accepts the words of two bytes and takes the format (30_encoding R61). -/
theorem decodeP_ok_iff : decodeP w = .ok i ↔ w.toNat < 65536 ∧ i = .powerOn (cmdFmt w) := by
  have hmask := maskedOff_iff w 16 (by decide)
  unfold decodeP
  grind

/-- Format R accepts the words of 11 bits whose code names a rate (30_encoding R61, R68). -/
theorem decodeR_ok_iff :
    decodeR w = .ok i ↔ w.toNat < 2048 ∧ ∃ r, SampleRate.ofCode (cmdRate w) = some r ∧ i = .setAudioRate r := by
  have hmask := maskedOff_iff w 11 (by decide)
  unfold decodeR
  grind

/-- The decode procedure by operation id: an accepted word has the id of a host command and the format of that id
(30_encoding R61, R63). -/
theorem decode_ok_iff : decode w = .ok i ↔
    cmdOp w = 0x01 ∧ decodeB w = .ok i ∨ cmdOp w = 0x02 ∧ decodeP w = .ok i ∨
    cmdOp w = 0x03 ∧ decodeN w .powerOff = .ok i ∨ cmdOp w = 0x04 ∧ decodeN w .suspend = .ok i ∨
    cmdOp w = 0x05 ∧ decodeN w .resume = .ok i ∨ cmdOp w = 0x06 ∧ decodeN w .queryConn = .ok i ∨
    cmdOp w = 0x07 ∧ decodeN w .queryPower = .ok i ∨ cmdOp w = 0x08 ∧ decodeR w = .ok i := by
  unfold decode
  dsimp only
  split_ifs <;> simp_all

/-- A format without operand accepts the one word that is its id (30_encoding R61, R62). -/
theorem encode_of_decodeN {j : Instr} {op : Byte} (hj : encode j = some (op.setWidth 32)) (hop : cmdOp w = op)
    (h : decodeN w j = .ok i) : encode i = some w := by
  obtain ⟨rfl, hw⟩ := decodeN_eq_ok h
  refine (encode_eq_some_iff _ hj).2 ?_
  rw [hw, hop, BitVec.toNat_setWidth_of_le (by decide)]

/-- A word of format B is the one of its flag. -/
theorem encode_of_decodeB (hop : cmdOp w = 0x01) (h : decodeB w = .ok i) : encode i = some w := by
  obtain ⟨hlt, rfl⟩ := decodeB_ok_iff.1 h
  have hlow : w.toNat % 256 = 1 := by rw [← cmdOp_toNat, hop]; rfl
  split
  · exact (encode_eq_some_iff 0x101 rfl).2 (show w.toNat = 0x101 by omega)
  · exact (encode_eq_some_iff 1 rfl).2 (show w.toNat = 1 by omega)

/-- A word of format P is the one of its format operand. -/
theorem encode_of_decodeP (hop : cmdOp w = 0x02) (h : decodeP w = .ok i) : encode i = some w := by
  obtain ⟨hlt, rfl⟩ := decodeP_ok_iff.1 h
  have hlow : w.toNat % 256 = 2 := by rw [← cmdOp_toNat, hop]; rfl
  rw [encode_powerOn_iff, cmdFmt_toNat]
  omega

/-- A word of format R is the one of its rate. -/
theorem encode_of_decodeR (hop : cmdOp w = 0x08) (h : decodeR w = .ok i) : encode i = some w := by
  obtain ⟨hlt, r, hr, rfl⟩ := decodeR_ok_iff.1 h
  have hlow : w.toNat % 256 = 8 := by rw [← cmdOp_toNat, hop]; rfl
  rw [encode_setAudioRate_iff, sampleRate_ofCode_eq_some_iff.1 hr, cmdRate_toNat]
  omega

/-- A word that decodes is the encoding of what it decodes to: the formats leave no bit of an accepted word unread
(30_encoding R61, R62). -/
theorem encode_of_decode (h : decode w = .ok i) : encode i = some w := by
  rcases decode_ok_iff.1 h with ⟨hop, h⟩ | ⟨hop, h⟩ | ⟨hop, h⟩ | ⟨hop, h⟩ | ⟨hop, h⟩ | ⟨hop, h⟩ | ⟨hop, h⟩ | ⟨hop, h⟩
  · exact encode_of_decodeB hop h
  · exact encode_of_decodeP hop h
  · exact encode_of_decodeN rfl hop h
  · exact encode_of_decodeN rfl hop h
  · exact encode_of_decodeN rfl hop h
  · exact encode_of_decodeN rfl hop h
  · exact encode_of_decodeN rfl hop h
  · exact encode_of_decodeR hop h

/-- The decoder reads back the operation and its operand (30_encoding R62, R67). -/
theorem decode_of_encode (h : encode i = some w) : decode w = .ok i := by
  cases i with
  | powerOn fmt =>
    have hw := encode_powerOn_iff.1 h
    have hfmt := fmt.isLt
    have hop : cmdOp w = 0x02 := BitVec.eq_of_toNat_eq (by simp [cmdOp_toNat, hw])
    have hread : cmdFmt w = fmt := BitVec.eq_of_toNat_eq (by rw [cmdFmt_toNat, hw]; omega)
    exact decode_ok_iff.2 (.inr (.inl ⟨hop, decodeP_ok_iff.2 ⟨by omega, by rw [hread]⟩⟩))
  | setAudioRate r => cases h; cases r <;> rfl
  | setHpd1 | setHpd0 | powerOff | suspend | resume | queryConn | queryPower => cases h; rfl
  | _ => cases h

/-- Decoding and encoding are one relation. -/
theorem decode_ok_iff_encode : decode w = .ok i ↔ encode i = some w := ⟨encode_of_decode, decode_of_encode⟩

end CommandWord

/-- Settles O2: the decoder dispatches on the id, and each format is the arithmetic of its encoding. -/
theorem decodeAndEncodeAgree : Obligations.DecodeAndEncodeAgree :=
  ⟨fun _ _ => decode_of_encode, fun _ _ => encode_of_decode⟩

/-- The decoder accepts the legal words and no other (30_encoding R61, R68). -/
theorem exists_decode_iff (w : Word) : (∃ i, decode w = .ok i) ↔ legalCommandWord w := by
  simp only [decode_ok_iff_encode, exists_encode_iff]

/-! ## Writes of CMD -/

section WriteCmd
variable {s : State} {w : Word}

/-- A write of CMD is ignored while BUSY (10_state R11). -/
theorem writeCmd_busy (hbusy : s.busy = true) : writeCmd w s = .next s := by
  simp [writeCmd, hbusy]

/-- A legal word runs its command (30_encoding R61). -/
theorem writeCmd_legal {i : Instr} (hbusy : s.busy = false) (hd : decode w = .ok i) :
    writeCmd w s = exec i { s with cmd := w, busy := true } := by
  simp [writeCmd, hbusy, hd]

/-- An illegal word completes with its own code and changes nothing else (30_encoding R68, 60_exceptions R192). -/
theorem writeCmd_illegal (hbusy : s.busy = false) (hw : ¬ legalCommandWord w) :
    writeCmd w s = .next (ended (cmdOp w) 6 [] { s with cmd := w }) := by
  cases hd : decode w with
  | ok i => exact absurd ((exists_decode_iff w).1 ⟨i, hd⟩) hw
  | error why => simp [writeCmd, hbusy, hd, illegalCommand, finish, ended, ErrKind.code]

/-- A step whose stimulus is a write of CMD is that write. -/
theorem step_of_writeCmd {d : Draws} {rest : List Stimulus} (h : s.agenda = ⟨.hostWrite 0x00 w, d⟩ :: rest) :
    step s = writeCmd w { s with agenda := rest, tick := s.tick + 1, draws := d } :=
  step_of_agenda h

/-- The low 32 bits of a word are the word. -/
theorem commandWord_toNat (w : Word) : commandWord 32 w.toNat = w := by
  rw [commandWord, Nat.mod_eq_of_lt w.isLt, BitVec.ofNat_toNat, BitVec.setWidth_eq]

end WriteCmd

/-- Settles O3: the legal words are those with an encoding, and for any other the decoder names a reason. -/
theorem illegalWordsCompleteWithError : Obligations.IllegalWordsCompleteWithError := by
  refine ⟨exists_decode_iff, fun s w d rest hagenda hbusy hw => ?_⟩
  have hop : cmdOp w = BitVec.ofNat 8 (w.toNat % 256) := by rw [← cmdOp_toNat, BitVec.ofNat_toNat, BitVec.setWidth_eq]
  rw [step_of_writeCmd hagenda, ← hop]
  exact writeCmd_illegal hbusy hw

/-- Settles O1: the legal words are the encodings of their commands, and the decoder gives the reasons of the others. -/
theorem publishedCommandWordsDecode : Obligations.PublishedCommandWordsDecode :=
  ⟨decode_of_encode rfl, decode_of_encode rfl, decode_of_encode rfl, decode_of_encode rfl, decode_of_encode rfl,
    decode_of_encode rfl, decode_of_encode rfl, decode_of_encode rfl, decode_of_encode rfl, decode_of_encode rfl,
    decode_of_encode rfl, rfl, rfl, rfl, rfl, rfl, rfl, rfl, rfl⟩

/-- Settles O4: the step is the write of CMD, and `withFetchWord` puts that write first on the agenda of an idle HOST. -/
theorem stepRunsDecodedCommand : Obligations.StepRunsDecodedCommand := by
  refine ⟨fun s w d rest hagenda => ⟨fun hbusy => ?_, fun i hbusy hd => ?_⟩, fun s w i hd => ?_⟩
  · rw [step_of_writeCmd hagenda]
    exact writeCmd_busy hbusy
  · rw [step_of_writeCmd hagenda]
    exact writeCmd_legal hbusy hd
  · have hagenda : (s.withFetchWord 32 w.toNat).agenda = ⟨.hostWrite 0x00 w, s.draws⟩ :: s.agenda := by
      rw [State.withFetchWord, issue, commandWord_toNat]
    rw [step_of_writeCmd hagenda]
    exact writeCmd_legal rfl hd

/-! ## Operations without an enabled step -/

/-- Settles O9: each operation tests its enabling condition before anything else. -/
theorem operationsNotEnabledChangeNothing : Obligations.OperationsNotEnabledChangeNothing := by
  intro s
  refine ⟨fun hline hspurious => ?_, fun hhead => ?_, fun hidle hhead => ?_, fun hp2 => ?_⟩
  · have hoff : connIrqEnabled s = false := by
      simpa [connIrqEnabled, irqLine, intEnBit, hspurious] using hline
    simp [exec, execConnIrq, hoff]
  · have hoff : hpdTaskEnabled s = false := by
      simpa [hpdTaskEnabled, List.head?_eq_some_iff] using hhead
    simp [exec, execHpdTask, hoff]
  · have hoff : s.wq.head? ≠ some .off := by
      simpa [List.head?_eq_some_iff] using hhead
    simp [exec, execPowerOffTask, powerOffTask, hidle, hoff]
  · simp [exec, execAudioDrain, hp2]

/-! ## Script lines -/

/-- Settles O10: a line's moves are the writes of its word, and what it goes on with is said by its kind. -/
theorem scriptLinesExpandToTheirWrites : Obligations.ScriptLinesExpandToTheirWrites := by
  refine ⟨fun fmt x y f => ⟨_, powerOnWord_toNat fmt, rfl⟩, fun x y f => rfl, rfl, rfl, rfl, rfl, rfl, rfl, rfl, rfl, rfl,
    fun r => ⟨_, audioRateWord_toNat r, rfl⟩, fun level => rfl, rfl, fun label => rfl, fun s l fmt x y f b r hl => ?_,
    fun s level label => ⟨rfl, rfl, rfl, rfl⟩⟩
  simp only [List.mem_cons, List.not_mem_nil, or_false] at hl
  rcases hl with rfl | rfl | rfl | rfl | rfl | rfl | rfl | rfl | rfl | rfl | rfl <;> rfl

end Sys2Proof.Machine

/-! ## A WORKER line without a label

Each step of WORKER inside POWEROFF_TASK either powers the block down and ends the task or leaves fewer steps to take, so a
line run with as many answers of ENV as there are steps left ends (30_encoding R71, 43_audio_drain R135, R137). -/

namespace Sys2Proof.Machine

/-- The steps POWEROFF_TASK still takes at most: P1, a poll for each attempt of each round left, P3 (43_audio_drain R135). -/
def stepsLeft (s : State) : Nat :=
  match s.spWorker with
  | .idle => 0
  | .powerOffTask .p1 => s.cfg.drainRounds * s.cfg.drainAttempts + 2
  | .powerOffTask .p2 =>
    (s.cfg.drainRounds - s.drainRound) * s.cfg.drainAttempts + (s.cfg.drainAttempts - s.drainAttempt) + 2
  | .powerOffTask .p3 => 1

/-- `t` is `s` after work of WORKER that powered the physical layer down `downs` times: the agenda is as it was, the queue
lost nothing but HPD, and the trace was extended. -/
structure WorkedOn (s t : State) (downs : Nat) : Prop where
  agenda : t.agenda = s.agenda
  queue : t.wq = s.wq ∨ t.wq = s.wq.filter (· ≠ .hpd)
  trace : ∃ l, t.trace = s.trace ++ l ∧ l.count .callPowerDownPhysicalLayer = downs

section WorkerLine
variable {s t : State} {d : Draws} {q : List Task}

/-- Work goes on from where it stood. -/
theorem WorkedOn.trans {u : State} {m n : Nat} (h : WorkedOn s t m) (h' : WorkedOn t u n) : WorkedOn s u (m + n) := by
  obtain ⟨l, hl, hm⟩ := h.trace
  obtain ⟨l', hl', hn⟩ := h'.trace
  refine ⟨h'.agenda.trans h.agenda, ?_, l ++ l', by rw [hl', hl, List.append_assoc], by rw [List.count_append, hm, hn]⟩
  rcases h.queue with hq | hq <;> rcases h'.queue with hq' | hq' <;> simp [hq', hq]

/-- Inside POWEROFF_TASK a step is left. -/
theorem stepsLeft_pos (h : inPowerOff s) : 0 < stepsLeft s := by
  unfold stepsLeft
  split <;> simp_all [inPowerOff]

/-- A move inside POWEROFF_TASK comes nearer to the end or is the end (43_audio_drain R135, 41_power_sequencer R102). -/
theorem WorkerMove.powerOff_progress (m : WorkerMove s t) (hattempts : s.cfg.drainAttempts = 500)
    (hrounds : s.cfg.drainRounds = 15) (hin : inPowerOff s) :
    (inPowerOff t ∧ stepsLeft t < stepsLeft s ∧ WorkedOn s t 0) ∨ (t.spWorker = .idle ∧ WorkedOn s t 1) := by
  cases m with
  | nothingQueued hidle | offGuard _ hidle | sameSample _ hidle | connected _ _ _ hidle | disconnected _ hidle =>
    exact absurd hidle hin
  | offStarts q hstart =>
    rcases hstart with ⟨hidle, -⟩ | ⟨hp1, rfl⟩
    · exact absurd hidle hin
    · exact .inl ⟨nofun, by simp [stepsLeft, hp1, hattempts, hrounds], rfl, .inl rfl, _, rfl, rfl⟩
  | drained hp2 _ => exact .inl ⟨nofun, by simp [stepsLeft, hp2], rfl, .inl rfl, _, rfl, rfl⟩
  | nextAttempt hp2 hlt =>
    refine .inl ⟨hin, ?_, rfl, .inl rfl, _, rfl, rfl⟩
    simp only [stepsLeft, hp2]
    omega
  | nextRound hp2 hge hlt =>
    refine .inl ⟨hin, ?_, rfl, .inl rfl, _, rfl, rfl⟩
    simp only [stepsLeft, hp2, hattempts, hrounds] at hlt ⊢
    omega
  | drainFailed hp2 _ _ => exact .inl ⟨nofun, by simp [stepsLeft, hp2], rfl, .inl rfl, _, rfl, rfl⟩
  | offAndTornDown _ _ => exact .inr ⟨rfl, rfl, .inr rfl, _, rfl, rfl⟩
  | offAndRearmed _ _ =>
    refine .inr ⟨rfl, rfl, .inl rfl, _, rfl, ?_⟩
    simp

/-- HPD_TASK is one move, and leaves WORKER idle (40_hotplug_fsm R86). -/
theorem WorkerMove.hpd_done (m : WorkerMove s t) (hidle : s.spWorker = .idle) (hq : s.wq = .hpd :: q) :
    t.spWorker = .idle ∧ WorkedOn { s with wq := q } t 0 := by
  cases m with
  | nothingQueued _ hempty => simp [hq] at hempty
  | offGuard q' _ hq' _ =>
    obtain rfl : q = q' := by simpa [hq] using hq'
    exact ⟨hidle, rfl, .inl rfl, [], by simp, rfl⟩
  | sameSample q' _ hq' _ | disconnected q' _ hq' _ _ =>
    obtain rfl : q = q' := by simpa [hq] using hq'
    exact ⟨hidle, rfl, .inl rfl, _, rfl, by simp⟩
  | connected q' sink recs _ hq' _ _ hsink =>
    obtain rfl : q = q' := by simpa [hq] using hq'
    refine ⟨hidle, rfl, .inl rfl,
      [Rec.regRead 0x0C (hpdIntStatusWord s), Rec.regWrite 0x04 0x4] ++ recs ++ [Rec.connChanged .connected], by simp, ?_⟩
    rcases hsink with ⟨-, rfl⟩ | ⟨-, -, rfl⟩ <;> simp
  | offStarts q' hstart => simp [hidle, hq] at hstart
  | drained hp | nextAttempt hp | nextRound hp | drainFailed hp | offAndTornDown hp | offAndRearmed hp =>
    simp [hidle] at hp

/-- The first move of POWEROFF_TASK takes it off the queue and leaves 7501 steps at most (41_power_sequencer R102 step P1). -/
theorem WorkerMove.off_started (m : WorkerMove s t) (hattempts : s.cfg.drainAttempts = 500)
    (hrounds : s.cfg.drainRounds = 15) (hidle : s.spWorker = .idle) (hq : s.wq = .off :: q) :
    inPowerOff t ∧ stepsLeft t = 7501 ∧ WorkedOn { s with wq := q } t 0 := by
  cases m with
  | nothingQueued _ hempty => simp [hq] at hempty
  | offGuard q' _ hq' | sameSample q' _ hq' | disconnected q' _ hq' | connected q' _ _ _ hq' => simp [hq] at hq'
  | offStarts q' hstart =>
    obtain rfl : q = q' := by simpa [hidle, hq] using hstart
    exact ⟨nofun, by simp [stepsLeft, hattempts, hrounds], rfl, .inl rfl, _, rfl, rfl⟩
  | drained hp | nextAttempt hp | nextRound hp | drainFailed hp | offAndTornDown hp | offAndRearmed hp =>
    simp [hidle] at hp

/-- WORKER's step always answers a state. -/
theorem workerStep_goesOn (s : State) : ∃ t, workerStep s = .next t := by
  unfold workerStep
  split
  · exact ⟨_, rfl⟩
  · split <;> exact ⟨_, rfl⟩

/-- A move of WORKER that a line makes leaves the agenda as it found it, the step counted and the answers in place. -/
theorem takeMove_worker (d : Draws) (s : State) :
    ∃ t, takeMove .worker d s = .next t ∧ WorkerMove { s with tick := s.tick + 1, draws := d } t := by
  obtain ⟨t, ht⟩ := workerStep_goesOn { s with tick := s.tick + 1, draws := d }
  refine ⟨t, ?_, worker_move _ t ht⟩
  rw [← ht, takeMove]
  exact step_of_agenda (s := { s with agenda := ⟨.worker, d⟩ :: s.agenda }) rfl

/-- The line makes its first move with the first answer. -/
theorem runFrom_worker_first (ds : List Draws) (h : takeMove .worker d s = .next t) :
    (ScriptLine.worker none).runFrom [.worker] (d :: ds) s = (ScriptLine.worker none).runFrom [] ds t := by
  simp [ScriptLine.runFrom, h]

/-- While the task is not complete the line makes another move. -/
theorem runFrom_worker_next (ds : List Draws) (hin : inPowerOff s) (h : takeMove .worker d s = .next t) :
    (ScriptLine.worker none).runFrom [] (d :: ds) s = (ScriptLine.worker none).runFrom [] ds t := by
  have hgo : (ScriptLine.worker none).goesOn s = some .worker := if_neg hin
  simp [ScriptLine.runFrom, hgo, h]

/-- The line is over once WORKER is idle, whatever answers are left. -/
theorem runFrom_worker_idle (answers : List Draws) (hidle : s.spWorker = .idle) :
    (ScriptLine.worker none).runFrom [] answers s = .next s := by
  have hgo : (ScriptLine.worker none).goesOn s = none := if_pos hidle
  cases answers with
  | nil => rfl
  | cons d ds => simp [ScriptLine.runFrom, hgo]

/-- With an answer for each step left, the line runs POWEROFF_TASK to its end. -/
theorem runFrom_powerOff_completes (answers : List Draws) (s : State) (hattempts : s.cfg.drainAttempts = 500)
    (hrounds : s.cfg.drainRounds = 15) (hin : inPowerOff s) (hleft : stepsLeft s ≤ answers.length) :
    ∃ t, (ScriptLine.worker none).runFrom [] answers s = .next t ∧ t.spWorker = .idle ∧ WorkedOn s t 1 := by
  induction answers generalizing s with
  | nil => exact absurd (stepsLeft_pos hin) (by simpa using hleft)
  | cons d ds ih =>
    obtain ⟨t, ht, m⟩ := takeMove_worker d s
    have hcfg : t.cfg = s.cfg := m.keepsArguments.cfg
    rw [runFrom_worker_next ds hin ht]
    rcases m.powerOff_progress hattempts hrounds hin with ⟨hin', hless, hworked⟩ | ⟨hidle, hworked⟩
    · have hless : stepsLeft t < stepsLeft s := hless
      have hlength : stepsLeft s ≤ ds.length + 1 := hleft
      obtain ⟨u, hu, hidle, hrest⟩ := ih t (hcfg ▸ hattempts) (hcfg ▸ hrounds) hin' (by omega)
      have hall := hworked.trans hrest
      exact ⟨u, hu, hidle, hall.agenda, hall.queue, hall.trace⟩
    · exact ⟨t, runFrom_worker_idle ds hidle, hidle, hworked.agenda, hworked.queue, hworked.trace⟩

/-- The drain counts of 00_scope R5. -/
theorem drainCounts_of_fixedOk {c : Config} (h : c.fixedOk = true) : c.drainAttempts = 500 ∧ c.drainRounds = 15 := by
  simp only [Config.fixedOk, Bool.and_eq_true, decide_eq_true_eq] at h
  tauto

end WorkerLine

/-- Settles O55: HPD_TASK ends with the first move; POWEROFF_TASK has 7501 steps left after it, and each takes one off. -/
theorem workerLineRunsItsTaskToCompletion : Obligations.WorkerLineRunsItsTaskToCompletion := by
  intro s task q answers hfixed hidle hq hlength
  obtain ⟨hattempts, hrounds⟩ := drainCounts_of_fixedOk hfixed
  obtain _ | ⟨d, ds⟩ := answers
  · simp at hlength
  obtain ⟨t, ht, m⟩ := takeMove_worker d s
  have hcfg : t.cfg = s.cfg := m.keepsArguments.cfg
  have hrun : (ScriptLine.worker none).run (d :: ds) s = (ScriptLine.worker none).runFrom [] ds t :=
    runFrom_worker_first ds ht
  cases task with
  | hpd =>
    obtain ⟨hidle', hworked⟩ := m.hpd_done hidle hq
    obtain ⟨l, hl, hcount⟩ := hworked.trace
    exact ⟨t, l, hrun.trans (runFrom_worker_idle ds hidle'), hidle', hworked.agenda, hworked.queue, hl, hcount⟩
  | off =>
    obtain ⟨hin, hleft, hworked⟩ := m.off_started hattempts hrounds hidle hq
    have hlength : 7502 ≤ ds.length + 1 := hlength
    obtain ⟨u, hu, hidle', hrest⟩ :=
      runFrom_powerOff_completes ds t (hcfg ▸ hattempts) (hcfg ▸ hrounds) hin (by omega)
    obtain ⟨hagenda, hqueue, l, hl, hcount⟩ := hworked.trans hrest
    exact ⟨u, l, hrun.trans hu, hidle', hagenda, hqueue, hl, hcount⟩

end Sys2Proof.Machine

/-! ## The hot-plug state machine

First the transition relation of the state, read off the moves; then the operations, each from the update or the moves that
say what it does (40_hotplug_fsm). -/

namespace Sys2Proof.Machine

section HotplugTable
variable {s t : State}

/-- A command of HOST moves the hot-plug state by arming or by a teardown only (40_hotplug_fsm R80, R81, R82). -/
theorem HostMove.hpdState_cases {i : Instr} (m : HostMove s i t) :
    t.ts.hpdState = s.ts.hpdState ∨
    (i = .setHpd1 ∧ s.ts.hpdState = .hpdOff ∧ t.ts.hpdState = .hpdArmed ∧ s.draws.enableHotplug = true) ∨
    (i = .setHpd0 ∧ s.ts.hpdState ≠ .hpdOff ∧ t.ts.hpdState = .hpdOff ∧ s.ts.panelPoweredOn = false) := by
  cases m with
  | armed hoff hok => exact .inr (.inl ⟨rfl, hoff, rfl, hok⟩)
  | tornDown harmed hpanel => exact .inr (.inr ⟨rfl, harmed, rfl, hpanel⟩)
  | _ => exact .inl rfl

/-- A command other than SET_HPD leaves the hot-plug state (40_hotplug_fsm R80). -/
theorem HostMove.hpdState_eq {i : Instr} (m : HostMove s i t) (h1 : i ≠ .setHpd1) (h0 : i ≠ .setHpd0) :
    t.ts.hpdState = s.ts.hpdState := by
  rcases m.hpdState_cases with h | ⟨hi, -⟩ | ⟨hi, -⟩
  · exact h
  · exact absurd hi h1
  · exact absurd hi h0

/-- WORKER moves the hot-plug state by a new sample, which HPD_TASK publishes last, or by the deferred disable of step P3
(40_hotplug_fsm R80, R86, 41_power_sequencer R102). -/
theorem WorkerMove.hpdState_cases (m : WorkerMove s t) :
    t.ts.hpdState = s.ts.hpdState ∨
    ((s.ts.hpdState = .hpdArmed ∨ s.ts.hpdState = .disconnected) ∧ t.ts.hpdState = .connected ∧
      s.wq.head? = some .hpd ∧ s.sense = true ∧
      ∃ before, t.trace = s.trace ++ before ++ [.connChanged .connected]) ∨
    ((s.ts.hpdState = .hpdArmed ∨ s.ts.hpdState = .connected) ∧ t.ts.hpdState = .disconnected ∧
      s.wq.head? = some .hpd ∧ s.sense = false ∧
      ∃ before, t.trace = s.trace ++ before ++ [.connChanged .disconnected]) ∨
    (s.ts.hpdState ≠ .hpdOff ∧ t.ts.hpdState = .hpdOff ∧ s.spWorker = .powerOffTask .p3 ∧
      s.ts.hotplugOffPending = true) := by
  cases m with
  | connected q sink recs _ hq hfrom hsense _ =>
    exact .inr (.inl ⟨hfrom, rfl, by simp [hq], hsense,
      [.regRead 0x0C (hpdIntStatusWord s), .regWrite 0x04 0x4] ++ recs, by simp⟩)
  | disconnected q _ hq hfrom hsense =>
    exact .inr (.inr (.inl ⟨hfrom, rfl, by simp [hq], hsense,
      [.regRead 0x0C (hpdIntStatusWord s), .regWrite 0x04 0x6], by simp⟩))
  | offAndTornDown hp3 hdeferred =>
    by_cases hoff : s.ts.hpdState = .hpdOff
    · exact .inl hoff.symm
    · exact .inr (.inr (.inr ⟨hoff, rfl, hp3, hdeferred⟩))
  | _ => exact .inl rfl

end HotplugTable

/-- Settles O47: a step is a move, the moves of HOST and WORKER say how they change the hot-plug state, and SET_HPD's two
words are the encodings of its two commands. -/
theorem hotplugStateFollowsItsTable : Obligations.HotplugStateFollowsItsTable := by
  intro s t hstep
  have m := step_move s t hstep
  generalize (nextStimulus s).action = a at m ⊢
  cases m with
  | noStep | arg0 | arg1 | arg2 | illegal | setSense => exact .inl rfl
  | powerOnStep _ _ _ _ hm | resumeStep _ _ _ hm => exact .inl (hm.hpdState_eq nofun nofun)
  | irq _ hm => exact .inl (congrArg TransmitterState.hpdState hm.ts_eq)
  | issued w i _ _ hd hm =>
    have hw := encode_of_decode hd
    rcases hm.hpdState_cases with h | ⟨rfl, hoff, harmed, hok⟩ | ⟨rfl, harmed, hoff, hpanel⟩
    · exact .inl h
    · obtain rfl : 0x101 = w := Option.some.inj hw
      exact .inr (.inl ⟨hoff, harmed, rfl, hok⟩)
    · obtain rfl : 0x001 = w := Option.some.inj hw
      exact .inr (.inr (.inr (.inr (.inl ⟨harmed, hoff, rfl, hpanel⟩))))
  | worker _ hm =>
    rcases hm.hpdState_cases with h | ⟨hfrom, hto, hq, hsense, htrace⟩ | ⟨hfrom, hto, hq, hsense, htrace⟩ |
      ⟨harmed, hoff, hp3, hdeferred⟩
    · exact .inl h
    · exact .inr (.inr (.inl ⟨hfrom, hto, rfl, hq, hsense, htrace⟩))
    · exact .inr (.inr (.inr (.inl ⟨hfrom, hto, rfl, hq, hsense, htrace⟩)))
    · exact .inr (.inr (.inr (.inr (.inr ⟨harmed, hoff, rfl, hp3, hdeferred⟩))))

/-! ### SET_HPD, TEARDOWN and ARM_SENSE -/

/-- Settles O11: SET_HPD 1 has the three moves of its rule, and their conditions exclude each other. -/
theorem setHpdEnableArms : Obligations.SetHpdEnableArms := by
  intro s
  have hexec : exec .setHpd1 s = .next (setHpd1 s) := rfl
  have m := setHpd1_move s
  generalize setHpd1 s = t at hexec m
  rw [hexec]
  cases m with
  | armedAlready h => simp [h]
  | domainFailed h hd => simp [h, hd]
  | armed h hd => simp [h, hd]

/-- Settles O12: SET_HPD 0 has the three moves of its rule, and their conditions exclude each other. -/
theorem setHpdDisableDefersOrTearsDown : Obligations.SetHpdDisableDefersOrTearsDown := by
  intro s
  have hexec : exec .setHpd0 s = .next (setHpd0 s) := rfl
  have m := setHpd0_move s
  generalize setHpd0 s = t at hexec m
  rw [hexec]
  cases m with
  | offAlready h => simp [h]
  | deferred h hp => simp [h, hp]
  | tornDown h hp => simp [h, hp]

/-- Settles O13: TEARDOWN is one update. -/
theorem teardownDisarms : Obligations.TeardownDisarms :=
  fun s => congrArg Host.Outcome.next (teardown_update s)

/-- Settles O14: ARM_SENSE is one update, whose word and latch follow the connection state. -/
theorem armSenseWatchesForTheOpposite : Obligations.ArmSenseWatchesForTheOpposite := by
  intro s
  have hexec : exec .armSense s = .next (armSense s) := rfl
  rw [hexec, armSense_update]
  exact ⟨fun h => by simp [h], fun h => by simp [h]⟩

/-! ### CONN_IRQ -/

/-- A read of HPD_INT_STATUS as a number: `intPending` and the line (10_state R21). -/
theorem hpdIntStatusWord_toNat (s : State) :
    (hpdIntStatusWord s).toNat = (if s.intPending then 1 else 0) + (if s.sense then 2 else 0) := by
  unfold hpdIntStatusWord
  cases s.intPending <;> cases s.sense <;> rfl

/-- The words HPD_INT_STATUS reads with an interrupt pending and without (10_state R21). -/
theorem hpdIntStatusWord_eq (s : State) : hpdIntStatusWord s =
    if s.intPending then (if s.sense then 3 else 1) else (if s.sense then 2 else 0) := by
  apply BitVec.eq_of_toNat_eq
  rw [hpdIntStatusWord_toNat]
  cases s.intPending <;> cases s.sense <;> rfl

/-- The request line, or a platform with spurious calls (30_encoding R64, 60_exceptions R187). -/
theorem connIrqEnabled_iff {s : State} : connIrqEnabled s = true ↔
    (s.intPending = true ∧ s.tx.hpdIntCtrl.getLsbD 2 = true) ∨ s.cfg.spuriousIrq = true := by
  simp [connIrqEnabled, irqLine, intEnBit]

/-- CONN_IRQ as one update: a read, and on a pending interrupt the acknowledge before the task is scheduled
(40_hotplug_fsm R85). -/
theorem connIrq_update (s : State) : connIrq s =
    if s.intPending then
      scheduleHpdTask
        { s with
          intPending := false
          trace := s.trace ++ [.regRead 0x0C (hpdIntStatusWord s), .regWrite 0x08 0x1] }
    else { s with trace := s.trace ++ [.regRead 0x0C (hpdIntStatusWord s)] } := by
  unfold connIrq
  rw [statusPending_eq, noteRead_status]
  simp [emit, txRead, txWrite, pendingAfterWrite, TxRegs.set, TxReg.offset]

/-- Settles O15: where CONN_IRQ is enabled it is its update, and a second interrupt finds HPD_TASK queued. -/
theorem interruptReadsAcknowledgesAndQueues : Obligations.InterruptReadsAcknowledgesAndQueues := by
  intro s henabled
  have hexec : exec .connIrq s = .next (connIrq s) := by
    simp [exec, execConnIrq, connIrqEnabled_iff.2 henabled]
  rw [hexec, connIrq_update, hpdIntStatusWord_eq]
  refine ⟨fun hp => ?_, fun hp ht => ?_, fun hp ht => ?_⟩
  · simp [hp]
  · simp [hp, ht, scheduleHpdTask]
  · simp [hp, ht, scheduleHpdTask]

/-- `s` with another `TransmitterState`. -/
def withTransmitter (ts : TransmitterState) (s : State) : State := { s with ts := ts }

/-- CONN_IRQ does the same whatever `TransmitterState` holds (40_hotplug_fsm R85). -/
theorem connIrq_withTransmitter (ts : TransmitterState) (s : State) :
    connIrq (withTransmitter ts s) = withTransmitter ts (connIrq s) := by
  unfold connIrq scheduleHpdTask
  simp only [apply_ite (withTransmitter ts)]
  rfl

/-- Settles O49: neither the test of CONN_IRQ nor the handler looks at `TransmitterState`. -/
theorem interruptIgnoresTransmitterState : Obligations.InterruptIgnoresTransmitterState := by
  rintro s t ts ⟨⟩
  refine ⟨(connIrq_move s).ts_eq, ?_⟩
  show exec .connIrq (withTransmitter ts s) = .next (withTransmitter ts _)
  rw [apply_ite (withTransmitter ts), ← connIrq_withTransmitter]
  rfl

/-! ### HPD_TASK -/

section HotplugTask
variable {s t : State} {q : List Task}

/-- HPD_TASK at the head of the queue of an idle worker makes one of WORKER's moves (40_hotplug_fsm R86). -/
theorem exec_hpdTask_move (hidle : s.spWorker = .idle) (hq : s.wq = .hpd :: q) :
    ∃ t, exec .hpdTask s = .next t ∧ WorkerMove s t := by
  have henabled : hpdTaskEnabled s = true := by simp [hpdTaskEnabled, hidle, hq]
  exact ⟨hpdTask s, by simp [exec, execHpdTask, henabled], hpdTask_move s q hidle hq⟩

/-- What HPD_TASK can do from the head of the queue of an idle worker while armed: re-program the polarity on the sample it
has, or go to the sampled state (40_hotplug_fsm R86 steps T3 to T6). -/
theorem WorkerMove.hpd_samples (m : WorkerMove s t) (hidle : s.spWorker = .idle) (hq : s.wq = .hpd :: q)
    (harmed : s.ts.hpdState ≠ .hpdOff) :
    t.ts.hpdState = sampledState s.sense ∧
      (s.ts.hpdState = sampledState s.sense → ∃ word,
        t.trace = s.trace ++ [.regRead 0x0C (hpdIntStatusWord s), .regWrite 0x04 word]) := by
  cases m with
  | nothingQueued _ hempty => simp [hq] at hempty
  | offGuard _ _ _ hoff => exact absurd hoff harmed
  | sameSample _ _ _ hsame => exact ⟨hsame, fun _ => ⟨_, rfl⟩⟩
  | connected _ _ _ _ _ hfrom hsense | disconnected _ _ _ hfrom hsense =>
    exact ⟨by simp [sampledState, hsense], fun hsame => by simp [sampledState, hsense, hsame] at hfrom⟩
  | offStarts _ hstart => simp [hidle, hq] at hstart
  | drained hp | nextAttempt hp | nextRound hp | drainFailed hp | offAndTornDown hp | offAndRearmed hp =>
    simp [hidle] at hp

end HotplugTask

/-- Settles O16: HPD_TASK makes one of WORKER's moves, and the state and the sample pick the move. -/
theorem hotplugTaskFollowsTheLine : Obligations.HotplugTaskFollowsTheLine := by
  rintro s p q status hidle hq rfl hstatus
  obtain rfl : status = hpdIntStatusWord s := BitVec.eq_of_toNat_eq (hstatus.trans (hpdIntStatusWord_toNat s).symm)
  obtain ⟨t, hexec, m⟩ := exec_hpdTask_move hidle hq
  rw [hexec]
  cases m with
  | nothingQueued _ hempty => simp [hq] at hempty
  | offGuard q' _ hq' hoff =>
    obtain rfl : q = q' := by simpa [hq] using hq'
    simp [hoff]
  | sameSample q' _ hq' hsame =>
    obtain rfl : q = q' := by simpa [hq] using hq'
    cases hsense : s.sense <;> simp [hsame, hsense, sampledState]
  | connected q' sink recs _ hq' hfrom hsense hsink =>
    obtain rfl : q = q' := by simpa [hq] using hq'
    rcases hsink with ⟨hread, rfl⟩ | ⟨hread, rfl, rfl⟩
    · rcases hfrom with hfrom | hfrom <;> simp [hfrom, hsense, hread]
    · rcases hfrom with hfrom | hfrom <;> simp [hfrom, hsense, hread]
  | disconnected q' _ hq' hfrom hsense =>
    obtain rfl : q = q' := by simpa [hq] using hq'
    rcases hfrom with hfrom | hfrom <;> simp [hfrom, hsense]
  | offStarts _ hstart => simp [hidle, hq] at hstart
  | drained hp | nextAttempt hp | nextRound hp | drainFailed hp | offAndTornDown hp | offAndRearmed hp =>
    simp [hidle] at hp

/-- Settles O17: the first run leaves the sampled state, so the second finds its sample there already. -/
theorem sameSampleIsPublishedOnce : Obligations.SameSampleIsPublishedOnce := by
  intro s t s' t' q q' l c hidle hq harmed hexec hidle' hq' hstate hsense hexec' htrace
  obtain ⟨_, h, m⟩ := exec_hpdTask_move hidle hq
  obtain rfl := Host.Outcome.next.inj (h.symm.trans hexec)
  obtain ⟨_, h', m'⟩ := exec_hpdTask_move hidle' hq'
  obtain rfl := Host.Outcome.next.inj (h'.symm.trans hexec')
  have hsampled : s'.ts.hpdState = sampledState s'.sense := by
    rw [hstate, hsense]
    exact (m.hpd_samples hidle hq harmed).1
  have harmed' : s'.ts.hpdState ≠ .hpdOff := by
    rw [hsampled]
    cases s'.sense <;> nofun
  obtain ⟨word, hword⟩ := (m'.hpd_samples hidle' hq' harmed').2 hsampled
  rw [List.append_cancel_left (htrace.symm.trans hword)]
  simp

/-! ### SUSPEND, RESUME and the queries -/

/-- The end of a host command is its `Done` with no record before it. -/
theorem finish_eq_ended (op err : Byte) (s : State) : finish op err s = ended op err [] s := by
  simp [finish, ended]

/-- Settles O18: SUSPEND is one update and its end. -/
theorem suspendOnlySetsItsFlag : Obligations.SuspendOnlySetsItsFlag :=
  fun _ => congrArg Host.Outcome.next (finish_eq_ended 0x04 0 _)

/-- The condition of the forced publication: timed out, armed, not connected (40_hotplug_fsm R89). -/
theorem resumeForces_iff {s : State} : resumeForces s = true ↔
    s.hpdEventSeen = false ∧ s.ts.hpdState ≠ .hpdOff ∧ s.ts.connectionState = .disconnected := by
  simp [resumeForces, and_assoc]

/-- Step B of RESUME as its end: a forced publication or none (40_hotplug_fsm R89). -/
theorem resumeB_eq_ended (s : State) : resumeB s =
    ended 0x05 0 (if resumeForces s then [.connChanged .disconnected] else [])
      { s with ts := { s.ts with panelSuspended := false } } := by
  unfold resumeB
  cases resumeForces s <;> simp [finish, emit, ended]

/-- Settles O19: away from step B RESUME takes step W; at B the wait ends on an event or on ENV's timeout. -/
theorem resumeWaitsThenDecides : Obligations.ResumeWaitsThenDecides := by
  intro s
  have hexec : exec .resume s = .next (resume s) := rfl
  rw [hexec]
  unfold resume
  refine ⟨fun hsp hdone => ?_, fun hsp hsuspended harmed => ?_, fun hsp hevent htimeout => ?_, fun hsp hevent => ?_,
    fun hsp hevent htimeout => ?_⟩
  · simp [hsp, resumeW, hdone, finish_eq_ended]
  · simp [hsp, resumeW, hsuspended, harmed]
  · simp [hsp, resumeReady, hevent, htimeout]
  · simp [hsp, resumeReady, hevent, resumeB_eq_ended, resumeForces_iff]
  · simp [hsp, resumeReady, hevent, htimeout, resumeB_eq_ended, resumeForces_iff]

/-- The connection state as the word a query returns (10_state R13). -/
theorem connectionWord_eq (c : Connection) :
    c.code.setWidth 32 = if c = .connected then (1 : Word) else 0 := by
  cases c <;> rfl

/-- Settles O20: each query stores its bit in RDATA and ends. -/
theorem queriesReturnTheStoredFields : Obligations.QueriesReturnTheStoredFields := by
  intro s
  refine ⟨?_, congrArg Host.Outcome.next (finish_eq_ended 0x07 0 _)⟩
  rw [← connectionWord_eq]
  exact congrArg Host.Outcome.next (finish_eq_ended 0x06 0 _)

end Sys2Proof.Machine

/-! ## The power sequencer

First what the steps of POWER_ON, POWER_OFF and POWEROFF_TASK do, as one equation each; then what every step keeps while a
power-off is pending, while a hot-plug disable is deferred, and where a command fails (41_power_sequencer). -/

namespace Sys2Proof.Machine

/-! ### POWER_ON -/

section PowerOn
variable {s : State} {a : PowerOnArgs} {fmt : FormatId}

/-- Step W of POWER_ON: refused while not armed or already on, else its operands are kept and it waits
(41_power_sequencer R100). -/
theorem powerOnW_eq (a : PowerOnArgs) (s : State) : powerOnW a s =
    if s.ts.hpdState = .hpdOff ∨ (s.ts.panelPoweredOn = true ∧ s.offPending = false) then ended 0x02 1 [] s
    else { s with spHost := .powerOn .b a } := by
  by_cases hoff : s.ts.hpdState = .hpdOff
  · simp [powerOnW, hoff, finish_eq_ended, ErrKind.code]
  · simp [powerOnW, alreadyOn, hoff, finish_eq_ended, ErrKind.code]

/-- Away from step B, POWER_ON is its step W with some operands. -/
theorem powerOn_eq_powerOnW (hb : ∀ a, s.spHost ≠ .powerOn .b a) : ∃ a, powerOn fmt s = powerOnW a s := by
  unfold powerOn
  split
  · next a ha => exact absurd ha (hb a)
  all_goals exact ⟨_, rfl⟩

/-- A POWER_ON that is not in flight reads its operands (30_encoding R67). -/
theorem powerOn_reads_operands (hsp : ∀ lbl a, s.spHost ≠ .powerOn lbl a) :
    powerOn fmt s = powerOnW ⟨fmt, s.arg0, s.arg1, s.arg2⟩ s := by
  unfold powerOn
  split
  · next a ha => exact absurd ha (hsp .b a)
  · next a ha => exact absurd ha (hsp .w a)
  all_goals rfl

/-- Step B of POWER_ON, once no power-off is pending. -/
theorem powerOn_eq_powerOnB (hsp : s.spHost = .powerOn .b a) (hno : s.offPending = false) :
    powerOn fmt s = powerOnB a s := by
  simp [powerOn, hsp, hno]

/-- Step B with the core domain down: nothing but the failed call (41_power_sequencer R100 step B2). -/
theorem powerOnB_coreFailed (harmed : s.ts.hpdState ≠ .hpdOff) (hcore : s.draws.enableCore = false) :
    powerOnB a s = ended 0x02 2 [.callEnable .core false] s := by
  simp [powerOnB, harmed, drawEnable, hcore, enableDomain, finish, ended, ErrKind.code]

/-- Step B with the CEC domain down: the core domain is rolled back (41_power_sequencer R100 step B3). -/
theorem powerOnB_cecFailed (harmed : s.ts.hpdState ≠ .hpdOff) (hcore : s.draws.enableCore = true)
    (hcec : s.draws.enableCec = false) :
    powerOnB a s = ended 0x02 2 [.callEnable .core true, .callEnable .cec false, .callDisable .core]
      { s with enabled := { s.enabled with core := false } } := by
  simp [powerOnB, harmed, drawEnable, hcore, hcec, enableDomain, disableDomain, Enabled.set, finish, ended, ErrKind.code]

/-- Step B with both domains up brings the link up (41_power_sequencer R100 steps B4 to B12). -/
theorem powerOnB_eq_bringUp (harmed : s.ts.hpdState ≠ .hpdOff) (hcore : s.draws.enableCore = true)
    (hcec : s.draws.enableCec = true) : powerOnB a s = bringUp a (enableDomain .cec (enableDomain .core s)) := by
  simp [powerOnB, harmed, drawEnable, hcore, hcec]

/-- The pixel clock in Hz as a number modulo 2^32 (41_power_sequencer R100 step B4). -/
theorem pixelClock_eq_ofNat (f : Word) : f * 1000 = BitVec.ofNat 32 (f.toNat * 1000) := by
  apply BitVec.eq_of_toNat_eq
  simp

end PowerOn

/-- Settles O22: away from step B it is step W, at B it waits or is the branch of step B that the answers pick. -/
theorem powerOnFollowsItsSteps : Obligations.PowerOnFollowsItsSteps := by
  intro s fmt
  have hexec : exec (.powerOn fmt) s = .next (powerOn fmt s) := rfl
  rw [hexec]
  refine ⟨fun hb hoff => ?_, fun hb hpanel hno => ?_, fun hsp harmed hwait => ?_, fun a hsp harmed hwait => ?_,
    fun a hsp => ⟨fun hpending => ?_, fun hno hoff => ?_, fun hno harmed hcore => ?_, fun hno harmed hcore hcec => ?_,
      fun id t recs hno harmed hcore hcec hresolve hrecs => ?_⟩⟩
  · obtain ⟨a, ha⟩ := powerOn_eq_powerOnW (fmt := fmt) hb
    simp [ha, powerOnW_eq, hoff]
  · obtain ⟨a, ha⟩ := powerOn_eq_powerOnW (fmt := fmt) hb
    simp [ha, powerOnW_eq, hpanel, hno]
  · rw [powerOn_reads_operands hsp, powerOnW_eq, if_neg]
    rcases hwait with h | h <;> simp [harmed, h]
  · have hw : powerOn fmt s = powerOnW a s := by simp [powerOn, hsp]
    rw [hw, powerOnW_eq, if_neg]
    rcases hwait with h | h <;> simp [harmed, h]
  · simp [powerOn, hsp, hpending]
  · rw [powerOn_eq_powerOnB hsp hno]
    simp [powerOnB, hoff, finish_eq_ended, ErrKind.code]
  · rw [powerOn_eq_powerOnB hsp hno, powerOnB_coreFailed harmed hcore]
  · rw [powerOn_eq_powerOnB hsp hno, powerOnB_cecFailed harmed hcore hcec]
  · rw [powerOn_eq_powerOnB hsp hno, powerOnB_eq_bringUp harmed hcore hcec,
      bringUp_update a s id t recs hcore hcec hresolve hrecs, pixelClock_eq_ofNat]

/-! ### POWER_OFF, POWEROFF_TASK and SET_AUDIO_RATE -/

/-- Settles O23: POWER_OFF tests the panel and the pending power-off, and ends either way. -/
theorem powerOffQueuesOneTask : Obligations.PowerOffQueuesOneTask := by
  intro s
  have hexec : exec .powerOff s = .next (powerOff s) := rfl
  rw [hexec, powerOff]
  refine ⟨fun hpanel hno => ?_, fun hnothing => ?_⟩
  · simp [hpanel, hno, finish_eq_ended]
  · rw [if_neg (by rcases hnothing with h | h <;> simp [h]), complete_eq_finish, finish_eq_ended]

/-- The first part of step P3 as one update (41_power_sequencer R102). -/
theorem shutDown_update (s : State) : shutDown s =
    { s with
      tx := { s.tx with ctrl := 0x0 }
      ts := { s.ts with pixelClockHz := 0, panelPoweredOn := false }
      enabled := { s.enabled with core := false, cec := false }
      trace := s.trace ++ [.regWrite 0x00 0x0, .callPowerDownPhysicalLayer, .callDisable .core, .callDisable .cec] } := by
  simp [shutDown, emit, txWrite, disableDomain, Enabled.set, TxRegs.set, TxReg.offset, pendingAfterWrite]

/-- Settles O24: the label picks the step; P3 is the shut-down, then a teardown or ARM_SENSE. -/
theorem powerOffTaskRunsItsSteps : Obligations.PowerOffTaskRunsItsSteps := by
  intro s
  have hexec : exec .powerOffTask s = .next (powerOffTask s) := rfl
  rw [hexec]
  refine ⟨fun q hidle hq => ?_, fun hp2 => ?_, fun hp3 hdeferred => ?_, fun hp3 hno => ?_⟩
  · simp [powerOffTask, hidle, hq, powerOffP1, emit]
  · simp [powerOffTask, hp2, exec, execAudioDrain]
  · simp [powerOffTask, hp3, powerOffP3, settleHotplug, shutDown_update, teardown_update, hdeferred]
  · simp [powerOffTask, hp3, powerOffP3, settleHotplug, shutDown_update, armSense_update, hno]

/-- Settles O25: SET_AUDIO_RATE is one update and its end. -/
theorem setAudioRateStoresTheRate : Obligations.SetAudioRateStoresTheRate :=
  fun _ _ => congrArg Host.Outcome.next (finish_eq_ended 0x08 0 _)

/-! ### What the agents record

The records of IRQ and of WORKER before step P3 hold no power-domain call and no `Done`; step P3 has records of its own. -/

/-- `t` is `s` after records that all satisfy `P`. -/
def AddsOnly (P : Rec → Prop) (s t : State) : Prop := ∃ l, t.trace = s.trace ++ l ∧ ∀ r ∈ l, P r

/-- A record that CONN_IRQ, HPD_TASK or a step P1 or P2 of POWEROFF_TASK can add (40_hotplug_fsm R85, R86,
43_audio_drain R135). -/
inductive AsyncRecord : Rec → Prop where
  | statusRead (w : Word) : AsyncRecord (.regRead 0x0C w)
  | acknowledge : AsyncRecord (.regWrite 0x08 0x1)
  | watch (w : Word) (hw : w = 0x4 ∨ w = 0x6) : AsyncRecord (.regWrite 0x04 w)
  | sinkRead (result : Option SinkInfo) : AsyncRecord (.callReadSinkDescriptor result)
  | published (c : Connection) : AsyncRecord (.connChanged c)
  | audioRead (w : Word) : AsyncRecord (.regRead 0x10 w)
  | audioOff : AsyncRecord (.audioChanged false)
  | reported (k : ErrKind) : AsyncRecord (.report k)

/-- `t` is `s` after a move that is no command of HOST and not step P3: the pending power-off and the deferred disable are
as they were. -/
structure Undisturbed (s t : State) : Prop where
  records : AddsOnly AsyncRecord s t
  offPending : t.offPending = s.offPending
  deferred : t.ts.hotplugOffPending = s.ts.hotplugOffPending

/-- The records of step P3: the shut-down, then the deferred disable or the re-armed sense (41_power_sequencer R102). -/
def shutDownRecords (ts : TransmitterState) : List Rec :=
  [.regWrite 0x00 0x0, .callPowerDownPhysicalLayer, .callDisable .core, .callDisable .cec] ++
    if ts.hotplugOffPending then [.regWrite 0x04 0x0, .callDisable .hotplug]
    else [.regWrite 0x04 (if ts.connectionState = .connected then 0x4 else 0x6)]

/-- `t` is `s` after step P3 of POWEROFF_TASK (41_power_sequencer R102). -/
structure ShutsDown (s t : State) : Prop where
  label : s.spWorker = .powerOffTask .p3
  records : t.trace = s.trace ++ shutDownRecords s.ts
  deferred : t.ts.hotplugOffPending = false
  carriedOut : s.ts.hotplugOffPending = true → t.ts.hpdState = .hpdOff

section Agents
variable {s t : State} {P Q : Rec → Prop}

/-- Nothing recorded. -/
theorem AddsOnly.of_trace_eq (h : t.trace = s.trace) : AddsOnly P s t := ⟨[], by simpa using h, by simp⟩

/-- A weaker condition on the records. -/
theorem AddsOnly.mono (h : AddsOnly P s t) (hpq : ∀ r, P r → Q r) : AddsOnly Q s t := by
  obtain ⟨l, hl, hall⟩ := h
  exact ⟨l, hl, fun r hr => hpq r (hall r hr)⟩

/-- The records that a host command ends with. -/
theorem AddsOnly.ended {p : State} {recs : List Rec} (op err : Byte) (htrace : p.trace = s.trace) (h : ∀ r ∈ recs, P r)
    (hdone : P (.done op err)) : AddsOnly P s (ended op err recs p) := by
  refine ⟨recs ++ [.done op err], by simp [Machine.ended, htrace], ?_⟩
  simpa [or_imp, forall_and] using ⟨h, hdone⟩

/-- What is known of the records of `AddsOnly` holds of the records a trace was extended by. -/
theorem AddsOnly.forall_mem (h : AddsOnly P s t) {l : List Rec} (hl : t.trace = s.trace ++ l) : ∀ r ∈ l, P r := by
  obtain ⟨added, hadded, hall⟩ := h
  obtain rfl : l = added := List.append_cancel_left (hl.symm.trans hadded)
  exact hall

/-- IRQ's handler. -/
theorem IrqMove.undisturbed (m : IrqMove s t) : Undisturbed s t := by
  refine ⟨?_, by cases m <;> rfl, by cases m <;> rfl⟩
  cases m with
  | notEnabled => exact .of_trace_eq rfl
  | spurious => exact ⟨_, rfl, by simpa using .statusRead _⟩
  | acknowledged | queued => exact ⟨_, rfl, by simpa using ⟨.statusRead _, .acknowledge⟩⟩

/-- WORKER takes step P3 or leaves the pending power-off and the deferred disable. -/
theorem WorkerMove.undisturbed_or_shutsDown (m : WorkerMove s t) : Undisturbed s t ∨ ShutsDown s t := by
  cases m with
  | nothingQueued | offGuard => exact .inl ⟨.of_trace_eq rfl, rfl, rfl⟩
  | sameSample =>
    exact .inl ⟨⟨_, rfl, by simpa using ⟨.statusRead _, .watch _ (ite_watching _)⟩⟩, rfl, rfl⟩
  | connected q sink recs _ _ _ _ hsink =>
    refine .inl ⟨⟨[.regRead 0x0C (hpdIntStatusWord s), .regWrite 0x04 0x4] ++ recs ++ [.connChanged .connected],
      by simp, ?_⟩, rfl, rfl⟩
    have hrecs : ∀ r ∈ recs, AsyncRecord r := by
      rcases hsink with ⟨-, rfl⟩ | ⟨-, -, rfl⟩
      · simpa using .sinkRead _
      · simpa using ⟨.sinkRead _, .reported _⟩
    simpa [or_imp, forall_and] using ⟨.statusRead _, .watch _ (.inl rfl), hrecs, .published _⟩
  | disconnected =>
    exact .inl ⟨⟨_, rfl, by simpa using ⟨.statusRead _, .watch _ (.inr rfl), .published _⟩⟩, rfl, rfl⟩
  | offStarts => exact .inl ⟨⟨_, rfl, by simpa using .audioOff⟩, rfl, rfl⟩
  | drained | nextAttempt => exact .inl ⟨⟨_, rfl, by simpa using .audioRead _⟩, rfl, rfl⟩
  | nextRound => exact .inl ⟨⟨_, rfl, by simpa using ⟨.audioRead _, .audioOff⟩⟩, rfl, rfl⟩
  | drainFailed => exact .inl ⟨⟨_, rfl, by simpa using ⟨.audioRead _, .reported _⟩⟩, rfl, rfl⟩
  | offAndTornDown hp3 hdeferred => exact .inr ⟨hp3, by simp [shutDownRecords, hdeferred], rfl, fun _ => rfl⟩
  | offAndRearmed hp3 hno => exact .inr ⟨hp3, by simp [shutDownRecords, hno], hno, fun h => by simp [hno] at h⟩

end Agents

/-! ### A pending power-off holds POWER_ON back -/

/-- `t` is `s` after records without a core-domain enable, and the power-off is pending still or both domains were
disabled. -/
def HoldsCoreOff (s t : State) : Prop :=
  ∃ l, t.trace = s.trace ++ l ∧ (∀ ok, .callEnable .core ok ∉ l) ∧
    (t.offPending = true ∨ (.callDisable .core ∈ l ∧ .callDisable .cec ∈ l))

/-- In `l` every core-domain enable comes after a disable of Core and a disable of CEC. -/
def DisablesComeFirst (l : List Rec) : Prop :=
  ∀ l1 l2 ok, l = l1 ++ .callEnable .core ok :: l2 → .callDisable .core ∈ l1 ∧ .callDisable .cec ∈ l1

section Serialization
variable {s t : State}

/-- No enable recorded, and the power-off is pending still. -/
theorem HoldsCoreOff.of_addsOnly (h : AddsOnly (fun r => ∀ ok, r ≠ .callEnable .core ok) s t)
    (hpending : t.offPending = true) : HoldsCoreOff s t := by
  obtain ⟨l, hl, hno⟩ := h
  exact ⟨l, hl, fun ok hmem => hno _ hmem ok rfl, .inl hpending⟩

/-- While a power-off is pending no command enables the core domain (41_power_sequencer R100 step W). -/
theorem HostMove.holdsCoreOff {i : Instr} (m : HostMove s i t) (hpending : s.offPending = true) : HoldsCoreOff s t := by
  cases m with
  | coreFailed _ _ _ hno | cecFailed _ _ _ hno | poweredOn _ _ _ _ _ _ hno => simp [hpending] at hno
  | waits | stillWaits | resumeWaits | resumeStillWaits => exact .of_addsOnly (.of_trace_eq rfl) hpending
  | queuedOff => exact .of_addsOnly (.ended _ _ rfl (by simp) nofun) rfl
  | _ => exact .of_addsOnly (.ended _ _ rfl (by simp) nofun) hpending

/-- IRQ and WORKER before step P3 enable no domain. -/
theorem Undisturbed.holdsCoreOff (h : Undisturbed s t) (hpending : s.offPending = true) : HoldsCoreOff s t :=
  .of_addsOnly (h.records.mono fun r hr ok => by cases hr <;> nofun) (h.offPending.trans hpending)

/-- Step P3 disables both domains and enables none (41_power_sequencer R102). -/
theorem ShutsDown.holdsCoreOff (h : ShutsDown s t) : HoldsCoreOff s t := by
  refine ⟨_, h.records, fun ok => ?_, .inr ⟨by simp [shutDownRecords], by simp [shutDownRecords]⟩⟩
  unfold shutDownRecords
  split <;> simp

/-- Every move while a power-off is pending. -/
theorem Move.holdsCoreOff {a : Action} (m : Move s a t) (hpending : s.offPending = true) : HoldsCoreOff s t := by
  cases m with
  | noStep | arg0 | arg1 | arg2 | setSense => exact .of_addsOnly (.of_trace_eq rfl) hpending
  | illegal => exact .of_addsOnly (.ended _ _ rfl (by simp) nofun) hpending
  | issued _ _ _ _ _ hm => exact hm.holdsCoreOff hpending
  | powerOnStep _ _ _ _ hm | resumeStep _ _ _ hm => exact hm.holdsCoreOff hpending
  | irq _ hm => exact hm.undisturbed.holdsCoreOff hpending
  | worker _ hm =>
    rcases hm.undisturbed_or_shutsDown with h | h
    · exact h.holdsCoreOff hpending
    · exact h.holdsCoreOff

/-- Records without an enable put off the enables of what follows them. -/
theorem DisablesComeFirst.append {l m : List Rec} (hno : ∀ ok, .callEnable .core ok ∉ l)
    (h : (.callDisable .core ∈ l ∧ .callDisable .cec ∈ l) ∨ DisablesComeFirst m) : DisablesComeFirst (l ++ m) := by
  intro l1 l2 ok heq
  obtain ⟨rest, rfl, hm⟩ : ∃ rest, l1 = l ++ rest ∧ m = rest ++ .callEnable .core ok :: l2 := by
    rcases List.append_eq_append_iff.1 heq with ⟨rest, hl1, hm⟩ | ⟨rest, hl, hm⟩
    · exact ⟨rest, hl1, hm⟩
    · cases rest with
      | nil => exact ⟨[], by simpa using hl.symm, by simpa using hm.symm⟩
      | cons r rest =>
        obtain ⟨rfl, -⟩ := List.cons.inj hm
        exact absurd (by simp [hl]) (hno ok)
  rcases h with ⟨hcore, hcec⟩ | h
  · exact ⟨List.mem_append_left _ hcore, List.mem_append_left _ hcec⟩
  · obtain ⟨hcore, hcec⟩ := h rest l2 ok hm
    exact ⟨List.mem_append_right _ hcore, List.mem_append_right _ hcec⟩

/-- A run of one step more is a step and a run. -/
theorem run_succ_inv {k : Nat} (h : Host.Core.run Sys2Proof.core (k + 1) s = .next t) :
    ∃ u, step s = .next u ∧ Host.Core.run Sys2Proof.core k u = .next t := by
  simp only [Host.Core.run] at h
  split at h
  · next u hu => exact ⟨u, hu, h⟩
  all_goals cases h

/-- A run extends the trace (10_state R30). -/
theorem run_extends_trace (k : Nat) (h : Host.Core.run Sys2Proof.core k s = .next t) : ∃ l, t.trace = s.trace ++ l := by
  induction k generalizing s with
  | zero =>
    cases h
    exact ⟨[], by simp⟩
  | succ k ih =>
    obtain ⟨u, hu, hrun⟩ := run_succ_inv h
    obtain ⟨l, hl, -⟩ := (step_move s u hu).recorded
    obtain ⟨m, hm⟩ := ih hrun
    exact ⟨l ++ m, by rw [hm, hl, List.append_assoc]; rfl⟩

/-- A run from a pending power-off: each step holds the core domain off until step P3 has disabled both domains. -/
theorem run_disablesComeFirst (k : Nat) (hpending : s.offPending = true)
    (h : Host.Core.run Sys2Proof.core k s = .next t) {l : List Rec} (hl : t.trace = s.trace ++ l) :
    DisablesComeFirst l := by
  induction k generalizing s l with
  | zero =>
    cases h
    obtain rfl : l = [] := by simpa using hl
    intro l1 l2 ok heq
    simp at heq
  | succ k ih =>
    obtain ⟨u, hu, hrun⟩ := run_succ_inv h
    obtain ⟨first, hfirst, hno, hgoesOn⟩ := (step_move s u hu).holdsCoreOff hpending
    obtain ⟨rest, hrest⟩ := run_extends_trace k hrun
    obtain rfl : l = first ++ rest := by
      apply List.append_cancel_left (as := s.trace)
      rw [← hl, hrest, hfirst, List.append_assoc]
      rfl
    refine .append hno ?_
    rcases hgoesOn with hpending' | hdisabled
    · exact .inr (ih hpending' hrun hrest)
    · exact .inl hdisabled

end Serialization

/-- Settles O28, by induction on the length of the run. -/
theorem powerOnWaitsForThePendingPowerOff : Obligations.PowerOnWaitsForThePendingPowerOff :=
  fun k _ _ _ l1 l2 ok hpending hrun htrace heq => run_disablesComeFirst k hpending hrun htrace l1 l2 ok heq

/-! ### A deferred hot-plug disable -/

/-- A record that leaves the hot-plug domain and its interrupts on. -/
def LeavesHotplugOn (r : Rec) : Prop := r ≠ .callDisable .hotplug ∧ r ≠ .regWrite 0x04 0x0

/-- The disable is deferred still and nothing of it was carried out. -/
structure KeepsDeferral (s t : State) : Prop where
  deferred : t.ts.hotplugOffPending = true
  records : AddsOnly LeavesHotplugOn s t

section Deferral
variable {s t : State}

/-- A `Done` record does not touch the hot-plug domain. -/
theorem leavesHotplugOn_done (op err : Byte) : LeavesHotplugOn (.done op err) := ⟨nofun, nofun⟩

/-- With a disable deferred the panel is on, so no command tears down or powers on (40_hotplug_fsm R82,
41_power_sequencer R100). -/
theorem HostMove.keepsDeferral {i : Instr} (m : HostMove s i t) (h : Running s)
    (hdeferred : s.ts.hotplugOffPending = true) : KeepsDeferral s t := by
  have hpanel : s.ts.panelPoweredOn = true := h.rest.deferredPowered hdeferred
  refine ⟨m.keepsWorkerFields.deferred hdeferred, ?_⟩
  cases m with
  | waits | stillWaits | resumeWaits | resumeStillWaits => exact .of_trace_eq rfl
  | tornDown _ hoff => simp [hpanel] at hoff
  | poweredOn _ _ _ _ _ hsp hno => exact absurd hpanel (by simp [h.unpowered_of_powerOn hsp hno])
  | _ => exact .ended _ _ rfl (by simp [LeavesHotplugOn]) (leavesHotplugOn_done _ _)

/-- IRQ and WORKER before step P3 write other words to HPD_INT_CTRL and disable nothing. -/
theorem Undisturbed.keepsDeferral (h : Undisturbed s t) (hdeferred : s.ts.hotplugOffPending = true) :
    KeepsDeferral s t := by
  refine ⟨h.deferred.trans hdeferred, h.records.mono fun r hr => ?_⟩
  cases hr with
  | watch w hw => rcases hw with rfl | rfl <;> simp [LeavesHotplugOn]
  | _ => exact ⟨nofun, nofun⟩

/-- A move keeps a deferred disable or is step P3 of WORKER (41_power_sequencer R106). -/
theorem Move.keepsDeferral_or_shutsDown {a : Action} (m : Move s a t) (h : Inv s)
    (hdeferred : s.ts.hotplugOffPending = true) : KeepsDeferral s t ∨ (a = .worker ∧ ShutsDown s t) := by
  cases m with
  | noStep | arg0 | arg1 | arg2 | setSense => exact .inl ⟨hdeferred, .of_trace_eq rfl⟩
  | illegal => exact .inl ⟨hdeferred, .ended _ _ rfl (by simp) (leavesHotplugOn_done _ _)⟩
  | issued w _ _ _ _ hm =>
    obtain ⟨hkept, hrecords⟩ := hm.keepsDeferral (h.issued w) hdeferred
    exact .inl ⟨hkept, hrecords⟩
  | powerOnStep _ _ _ hsp hm | resumeStep _ _ hsp hm =>
    exact .inl (hm.keepsDeferral (h.running (by simp [hsp])) hdeferred)
  | irq _ hm => exact .inl (hm.undisturbed.keepsDeferral hdeferred)
  | worker _ hm => exact hm.undisturbed_or_shutsDown.imp (·.keepsDeferral hdeferred) fun hdown => ⟨rfl, hdown⟩

/-- With a disable deferred the machine is armed (10_state R15). -/
theorem Inv.armed_of_deferred (h : Inv s) (hdeferred : s.ts.hotplugOffPending = true) : s.ts.hpdState ≠ .hpdOff :=
  h.poweredArmed (h.deferredPowered hdeferred)

end Deferral

/-- Settles O29: a step is a move, which keeps the deferral, in a state of the invariant again, or is step P3, whose records
are then those of the disable. -/
theorem deferredDisableRunsExactlyOnce : Obligations.DeferredDisableRunsExactlyOnce := by
  intro s t l h hdeferred hstep hl
  rcases (step_move s t hstep).keepsDeferral_or_shutsDown h.prepared hdeferred with hkeeps | ⟨ha, hdown⟩
  · have harmed := (everyStepKeepsTheInvariant s t h hstep).armed_of_deferred hkeeps.deferred
    have hleaves := hkeeps.records.forall_mem hl
    exact .inl ⟨hkeeps.deferred, harmed, fun hmem => (hleaves _ hmem).1 rfl, fun hmem => (hleaves _ hmem).2 rfl⟩
  · have hrecords : l = shutDownRecords s.ts := List.append_cancel_left (hl.symm.trans hdown.records)
    exact .inr ⟨ha, hdown.label, hdown.deferred, hdown.carriedOut hdeferred,
      by simp [hrecords, shutDownRecords, hdeferred]⟩

/-! ### A command that fails -/

/-- A record that ends no command. -/
def EndsNothing (r : Rec) : Prop := ∀ op err, r ≠ .done op err

/-- Where the records added to `s` end a command with an error, `TransmitterState` and the domain flags are as they were,
RESULT shows the error, and HOST is idle (60_exceptions R192). -/
def FailsCleanly (s t : State) : Prop :=
  ∃ l, t.trace = s.trace ++ l ∧ ∀ op e, .done op e ∈ l → e ≠ 0 →
    t.ts = s.ts ∧ t.enabled = s.enabled ∧ t.err = e ∧ t.busy = false ∧ t.spHost = .idle

section Failure
variable {s t : State}

/-- No command ends. -/
theorem FailsCleanly.of_endsNothing (h : AddsOnly EndsNothing s t) : FailsCleanly s t := by
  obtain ⟨l, hl, hno⟩ := h
  exact ⟨l, hl, fun op e hmem _ => absurd rfl (hno _ hmem op e)⟩

/-- A command that ends with success, or that changed neither `TransmitterState` nor a domain flag. -/
theorem FailsCleanly.ended {p : State} {recs : List Rec} {op err : Byte} (htrace : p.trace = s.trace)
    (hrecs : ∀ r ∈ recs, EndsNothing r) (h : err = 0 ∨ (p.ts = s.ts ∧ p.enabled = s.enabled)) :
    FailsCleanly s (ended op err recs p) := by
  refine ⟨recs ++ [.done op err], by simp [Machine.ended, htrace], fun op' e hmem he => ?_⟩
  obtain ⟨-, rfl⟩ : op' = op ∧ e = err := by
    rcases List.mem_append.1 hmem with hmem | hmem
    · exact absurd rfl (hrecs _ hmem op' e)
    · simpa using hmem
  obtain ⟨hts, henabled⟩ := h.resolve_left he
  exact ⟨hts, henabled, rfl, rfl, rfl⟩

/-- The records of a successful POWER_ON end no command (41_power_sequencer R100). -/
theorem powerOnRecords_endNothing (c : Config) (id : FormatId) (t : VideoTiming) (rate : SampleRate) (sink : SinkInfo)
    (connection : Connection) : ∀ r ∈ powerOnRecords c id t rate sink connection, EndsNothing r := by
  obtain ⟨l, hl, hlink⟩ := powerOnRecords_link c id t rate sink connection
  have hends : ∀ r ∈ l, EndsNothing r := fun r hr => by cases hlink r hr <;> nofun
  simpa [hl, EndsNothing] using hends

/-- A running command fails cleanly: the rollback of POWER_ON finds the core domain off before it
(41_power_sequencer R105). -/
theorem HostMove.failsCleanly {i : Instr} (m : HostMove s i t) (h : Running s) : FailsCleanly s t := by
  cases m with
  | waits | stillWaits | resumeWaits | resumeStillWaits => exact .of_endsNothing (.of_trace_eq rfl)
  | domainFailed | refusedOff | refusedOn | coreFailed =>
    exact .ended rfl (by simp [EndsNothing]) (.inr ⟨rfl, rfl⟩)
  | cecFailed _ _ hsp hno =>
    have hcore : s.enabled.core = false := h.rest.coreFlag.trans (h.unpowered_of_powerOn hsp hno)
    exact .ended rfl (by simp [EndsNothing]) (.inr ⟨rfl, by simp [← hcore]⟩)
  | poweredOn _ _ _ _ _ _ _ _ _ _ hrecs => exact .ended rfl (hrecs ▸ powerOnRecords_endNothing _ _ _ _ _ _) (.inl rfl)
  | _ => exact .ended rfl (by simp [EndsNothing]) (.inl rfl)

/-- IRQ and WORKER before step P3 end no command. -/
theorem Undisturbed.failsCleanly (h : Undisturbed s t) : FailsCleanly s t :=
  .of_endsNothing (h.records.mono fun r hr => by cases hr <;> nofun)

/-- Step P3 ends no command. -/
theorem ShutsDown.failsCleanly (h : ShutsDown s t) : FailsCleanly s t := by
  refine .of_endsNothing ⟨_, h.records, ?_⟩
  unfold shutDownRecords
  split <;> simp [EndsNothing]

/-- Every move from a state of the invariant. -/
theorem Move.failsCleanly {a : Action} (m : Move s a t) (h : Inv s) : FailsCleanly s t := by
  cases m with
  | noStep | arg0 | arg1 | arg2 | setSense => exact .of_endsNothing (.of_trace_eq rfl)
  | illegal => exact .ended rfl (by simp) (.inr ⟨rfl, rfl⟩)
  | issued w _ _ _ _ hm => exact hm.failsCleanly (h.issued w)
  | powerOnStep _ _ _ hsp hm | resumeStep _ _ hsp hm => exact hm.failsCleanly (h.running (by simp [hsp]))
  | irq _ hm => exact hm.undisturbed.failsCleanly
  | worker _ hm => exact hm.undisturbed_or_shutsDown.elim (·.failsCleanly) (·.failsCleanly)

end Failure

/-- Settles O30: a step is a move, and every move fails cleanly. -/
theorem failedCommandsLeaveTransmitterState : Obligations.FailedCommandsLeaveTransmitterState := by
  intro s t l op e h hstep hl hmem he
  obtain ⟨added, hadded, hclean⟩ := (step_move s t hstep).failsCleanly h.prepared
  obtain rfl : l = added := List.append_cancel_left (hl.symm.trans hadded)
  exact hclean op e hmem he

end Sys2Proof.Machine

/-! ## Timing

The id that RESOLVE_TIMING picks is said once for each of the three cases of 42_timing R121. TIMING_PROG is six plain writes;
what is left of it is arithmetic, the exact totals as natural numbers and the words as numbers. -/

namespace Sys2Proof.Machine

section Lookup
variable {c : Config} {fmt id : FormatId} {x y f : Word}

/-- The supported ids are the keys of TIMING_TABLE (42_timing R120). -/
theorem supports_iff : c.supports id = true ↔ ∃ t, (id, t) ∈ c.timingTable := by
  simp [Config.supports]

/-- No requested format, or one without a row (42_timing R121). -/
theorem not_requested_and_supported (h : fmt = 0 ∨ ∀ t, (fmt, t) ∉ c.timingTable) :
    ¬ (fmt ≠ 0 ∧ c.supports fmt = true) := by
  rw [supports_iff]
  rintro ⟨hne, t, ht⟩
  exact h.elim hne fun hno => hno t ht

/-- A supported requested format is picked (42_timing R121). -/
theorem resolveId_requested (hne : fmt ≠ 0) (h : ∃ t, (fmt, t) ∈ c.timingTable) : resolveId c fmt x y f = fmt :=
  if_pos ⟨hne, supports_iff.2 h⟩

/-- Without one, the first geometry match gives the id, else the default does (42_timing R121). -/
theorem resolveId_not_requested (h : fmt = 0 ∨ ∀ t, (fmt, t) ∉ c.timingTable) :
    resolveId c fmt x y f = ((geometryMatch c x y f).map GeometryRow.format).getD c.defaultFormat := by
  rw [resolveId, if_neg (not_requested_and_supported h)]
  cases geometryMatch c x y f <;> rfl

/-- The match is the row of this geometry that has none before it (42_timing R121). -/
theorem geometryMatch_first {before after : List GeometryRow}
    (htable : c.geometryTable = before ++ ⟨x, y, f, id⟩ :: after)
    (hfirst : ∀ g ∈ before, ¬ (g.xres = x ∧ g.yres = y ∧ g.frameRate = f)) :
    geometryMatch c x y f = some ⟨x, y, f, id⟩ :=
  List.find?_eq_some_iff_append.2 ⟨by simp, before, after, htable, fun g hg => by
    simpa [or_assoc, imp_iff_not_or] using hfirst g hg⟩

/-- There is no match where no row has this geometry (42_timing R121). -/
theorem geometryMatch_none (h : ∀ g ∈ c.geometryTable, ¬ (g.xres = x ∧ g.yres = y ∧ g.frameRate = f)) :
    geometryMatch c x y f = none :=
  List.find?_eq_none.2 fun g hg => by simpa [and_assoc] using h g hg

/-- The match is a row of the table. -/
theorem geometryMatch_mem {g : GeometryRow} (h : geometryMatch c x y f = some g) : g ∈ c.geometryTable :=
  List.mem_of_find?_eq_some h

/-- The lookup always yields a supported id where the default and the geometry's formats are supported (42_timing R121). -/
theorem supports_resolveId (h : c.lookupTotal = true) : c.supports (resolveId c fmt x y f) = true := by
  simp only [Config.lookupTotal, Bool.and_eq_true, List.all_eq_true] at h
  obtain ⟨hdefault, hgeometry⟩ := h
  unfold resolveId
  split
  · next hreq => exact hreq.2
  · split
    · next g hg => exact hgeometry g (geometryMatch_mem hg)
    · exact hdefault

/-- The timing of a supported id is a row of TIMING_TABLE (42_timing R120). -/
theorem timingOf_mem (h : c.supports id = true) : (id, timingOf c id) ∈ c.timingTable := by
  obtain ⟨t, ht⟩ := supports_iff.1 h
  unfold timingOf Config.timing?
  cases hfind : c.timingTable.find? fun row => row.1 == id with
  | none => exact absurd (List.find?_eq_none.1 hfind _ ht) (by simp)
  | some row =>
    obtain rfl : row.1 = id := by simpa using List.find?_some hfind
    exact List.mem_of_find?_eq_some hfind

/-- Every row of a table that meets its requirements is legal (42_timing R122). -/
theorem legal_of_mem {t : VideoTiming} (h : c.timingTableOk = true) (hmem : (id, t) ∈ c.timingTable) :
    t.legal = true := by
  simp only [Config.timingTableOk, Bool.and_eq_true, List.all_eq_true] at h
  exact (h.2 _ hmem).2

/-- In a configuration that meets the platform's requirements the timing looked up is a legal row of the table
(70_reset_and_hazards R207). -/
theorem resolveTiming_wf (h : c.wf = true) :
    (resolveId c fmt x y f, timingOf c (resolveId c fmt x y f)) ∈ c.timingTable ∧
      (timingOf c (resolveId c fmt x y f)).legal = true := by
  simp only [Config.wf, Bool.and_eq_true] at h
  obtain ⟨⟨htable, hlookup⟩, -⟩ := h
  have hmem := timingOf_mem (supports_resolveId (fmt := fmt) (x := x) (y := y) (f := f) hlookup)
  exact ⟨hmem, legal_of_mem htable hmem⟩

end Lookup

/-- Settles O32: the id of each of the three cases, and the timing of any id that the lookup yields. -/
theorem resolveTimingPicksIdGeometryOrDefault : Obligations.ResolveTimingPicksIdGeometryOrDefault := by
  intro s fmt x y f id hcase
  obtain rfl : resolveId s.cfg fmt x y f = id := by
    obtain ⟨hne, hsupported, rfl⟩ | ⟨hno, before, after, htable, hfirst⟩ | ⟨hno, hnone, rfl⟩ := hcase
    · exact resolveId_requested hne hsupported
    · rw [resolveId_not_requested hno, geometryMatch_first htable hfirst]; rfl
    · rw [resolveId_not_requested hno, geometryMatch_none hnone]; rfl
  exact ⟨_, rfl, resolveTiming_wf⟩

/-- TIMING_PROG is its six writes in order: each register takes its word, and nothing else changes (42_timing R123). -/
theorem exec_timingProg {t : VideoTiming} {w1 w2 w3 w4 w5 w6 : Word} (s : State)
    (h : timingWrites t = [(.total, w1), (.activeH, w2), (.activeV, w3), (.vTotalF2, w4), (.activeVF2, w5),
      (.frameCtrl, w6)]) :
    exec (.timingProg t) s = .next
      { s with
        tx := { s.tx with total := w1, activeH := w2, activeV := w3, vTotalF2 := w4, activeVF2 := w5, frameCtrl := w6 }
        trace := s.trace ++ [.regWrite 0x14 w1, .regWrite 0x18 w2, .regWrite 0x1C w3, .regWrite 0x20 w4,
          .regWrite 0x24 w5, .regWrite 0x28 w6] } := by
  change Host.Outcome.next (txWrites (timingWrites t) s) = _
  rw [h, txWrites_plain _ s rfl]
  rfl

/-- A timing word of two values that are not negative (42_timing R123, 10_state R22). -/
theorem pack12_f12_toNat (h l : Nat) :
    (pack12 (f12 (h : Int)) (f12 (l : Int))).toNat = (h % 4096) * 65536 + l % 4096 := by
  rw [pack12_toNat, f12_ofNat, f12_ofNat]

/-- FRAME_CTRL has one bit for each of its three flags (42_timing R123, 10_state R22). -/
theorem frameCtrlWord_toNat (t : VideoTiming) :
    (frameCtrlWord t).toNat = (if t.interlaced then 2 ^ 31 else 0) + (if t.activeLowV then 2 ^ 29 else 0)
      + (if t.activeLowH then 2 ^ 28 else 0) := by
  unfold frameCtrlWord
  cases t.interlaced <;> cases t.activeLowV <;> cases t.activeLowH <;> decide

/-- `total_h` as a natural number (42_timing R122). -/
theorem totalH_eq {t : VideoTiming} {n : Nat}
    (h : n + 1 = t.activeH.toNat + t.frontPorchH.toNat + t.backPorchH.toNat + t.pulseWidthH.toNat) : totalH t = n := by
  unfold totalH
  omega

/-- `total_v` as a natural number (42_timing R122). -/
theorem totalV_eq {t : VideoTiming} {n : Nat}
    (h : n + 1 = t.activeV.toNat + t.frontPorchV.toNat + t.backPorchV.toNat + t.pulseWidthV.toNat) : totalV t = n := by
  unfold totalV
  omega

/-- `end_h` is the active pixels after `start_h` (42_timing R123). -/
theorem endH_eq (t : VideoTiming) : endH t = startH t + t.activeH.toNat := by
  unfold endH totalH startH
  omega

/-- `start_v` as a natural number (42_timing R123). -/
theorem startV_eq {t : VideoTiming} {n : Nat} (h : n + 1 = t.backPorchV.toNat + t.pulseWidthV.toNat) : startV t = n := by
  unfold startV
  omega

/-- `end_v` is the active lines after `start_v` (42_timing R123). -/
theorem endV_eq (t : VideoTiming) : endV t = startV t + t.activeV.toNat := by
  unfold endV totalV startV
  omega

/-- The word of V_TOTAL_F2 (42_timing R123). -/
theorem vTotalF2_toNat (interlaced : Bool) (n : Nat) :
    (if interlaced then pack12 0 (f12 ((n : Int) + 1)) else 0).toNat = if interlaced then (n + 1) % 4096 else 0 := by
  cases interlaced with
  | false => rfl
  | true => exact (pack12_toNat 0 _).trans (by rw [← Nat.cast_add_one, f12_ofNat]; simp)

/-- The word of ACTIVE_V_F2 (42_timing R123). -/
theorem activeVF2_toNat (interlaced : Bool) (h l : Nat) :
    (if interlaced then pack12 (f12 ((h : Int) + 1)) (f12 ((l : Int) + 1)) else 0).toNat =
      if interlaced then ((h + 1) % 4096) * 65536 + (l + 1) % 4096 else 0 := by
  cases interlaced with
  | false => rfl
  | true => exact pack12_f12_toNat (h + 1) (l + 1)

/-- Settles O33: the words are those of `timingWrites`, read as numbers where the row is legal. -/
theorem timingProgWritesTheTimingRegisters : Obligations.TimingProgWritesTheTimingRegisters := by
  refine ⟨fun s t th tv sh eh sv ev _ hth htv hsh heh hsv hev => ?_,
    fun s t => ⟨_, _, _, _, _, _, exec_timingProg s rfl⟩⟩
  have hTotalH : totalH t = th := totalH_eq hth
  have hTotalV : totalV t = tv := totalV_eq htv
  have hStartH : startH t = sh := by rw [hsh, startH, Nat.cast_add]
  have hEndH : endH t = eh := by rw [endH_eq, hStartH, heh, Nat.cast_add]
  have hStartV : startV t = sv := startV_eq hsv
  have hEndV : endV t = ev := by rw [endV_eq, hStartV, hev, Nat.cast_add]
  refine ⟨_, _, _, _, _, _, exec_timingProg s rfl, ?_, ?_, ?_, ?_, ?_, frameCtrlWord_toNat t⟩
  · rw [hTotalV, hTotalH, pack12_f12_toNat]
  · rw [hEndH, hStartH, pack12_f12_toNat]
  · rw [hEndV, hStartV, pack12_f12_toNat]
  · rw [hTotalV, vTotalF2_toNat]
  · rw [hEndV, hStartV, activeVF2_toNat]

end Sys2Proof.Machine

/-! ## The audio drain and AUDIO_ENABLE

One poll of the drain, then any number of them by the records they leave; last the records of AUDIO_ENABLE
(43_audio_drain). -/

namespace Sys2Proof.Machine

/-- The read of a poll is recorded with the word ENV's answer gives (10_state R30, 20_memory R46). -/
theorem noteRead_audioCfg_draw (s : State) : noteRead .audioCfg s =
    { s with trace := s.trace ++ [.regRead 0x10 (if s.draws.engineActive then 0x1 else 0x0)] } := by
  rw [noteRead_audioCfg, emit, txRead, audioCfgWord, bit]

/-- Settles O26: the draw, then the attempt, then the round pick the branch of the poll. -/
theorem drainPollCountsAttemptsAndRounds : Obligations.DrainPollCountsAttemptsAndRounds := by
  intro s hp2
  have hexec : exec .audioDrain s = .next (drainPoll s) := congrArg Host.Outcome.next (if_pos hp2)
  rw [hexec, drainPoll, readEngineActive_eq, noteRead_audioCfg_draw]
  refine ⟨fun hidle => ?_, fun hactive hattempt => ?_, fun hactive hattempt hround => ?_,
    fun hactive hattempt hround => ?_, drainCounts_of_fixedOk⟩
  · simp [hidle, drained]
  · simp [hactive, stillActive, hattempt]
  · simp [hactive, stillActive, hattempt.not_gt, hround, emit]
  · simp [hactive, stillActive, hattempt.not_gt, hround.not_gt, emit, drained]

/-! ### Polls in a row -/

/-- The records `l` are `a` reads that found the engine active, `i` that did not, `n` audio-off notifications and `f`
reports of a drain failure, and nothing else. -/
structure PollRecords (l : List Rec) (a i n f : Nat) : Prop where
  active : l.count (.regRead 0x10 0x1) = a
  inactive : l.count (.regRead 0x10 0x0) = i
  notified : l.count (.audioChanged false) = n
  failed : l.count (.report .drainTimeout) = f
  length : l.length = a + i + n + f

/-- `t` is `s` after `k` polls that all found the engine active, in round `k / 500 + 1` of 500 attempts each
(43_audio_drain R137). -/
structure PolledActive (s t : State) (k : Nat) : Prop where
  cfg : t.cfg = s.cfg
  label : t.spWorker = .powerOffTask .p2
  round : t.drainRound = k / 500 + 1
  attempt : t.drainAttempt = k % 500 + 1
  records : ∃ l, t.trace = s.trace ++ l ∧ PollRecords l k 0 (k / 500) 0

section Drain
variable {s t : State} {k : Nat}

/-- Two stretches of polls one after the other. -/
theorem PollRecords.append {l m : List Rec} {a i n f a' i' n' f' : Nat} (h : PollRecords l a i n f)
    (h' : PollRecords m a' i' n' f') : PollRecords (l ++ m) (a + a') (i + i') (n + n') (f + f') where
  active := by rw [List.count_append, h.active, h'.active]
  inactive := by rw [List.count_append, h.inactive, h'.inactive]
  notified := by rw [List.count_append, h.notified, h'.notified]
  failed := by rw [List.count_append, h.failed, h'.failed]
  length := by rw [List.length_append, h.length, h'.length]; omega

/-- The records of one poll, in each of the four branches (43_audio_drain R135). -/
theorem pollRecords_drained : PollRecords [.regRead 0x10 0x0] 0 1 0 0 := by constructor <;> decide

theorem pollRecords_nextAttempt : PollRecords [.regRead 0x10 0x1] 1 0 0 0 := by constructor <;> decide

theorem pollRecords_nextRound : PollRecords [.regRead 0x10 0x1, .audioChanged false] 1 0 1 0 := by
  constructor <;> decide

theorem pollRecords_timeout : PollRecords [.regRead 0x10 0x1, .report .drainTimeout] 1 0 0 1 := by
  constructor <;> decide

/-- Polls that go on from where others stood. -/
theorem drainPolls_append (l m : List Bool) (h : drainPolls l s = .next t) :
    drainPolls (l ++ m) s = drainPolls m t := by
  induction l generalizing s with
  | nil => cases h; rfl
  | cons active l ih =>
    simp only [List.cons_append, drainPolls] at h ⊢
    split at h
    · exact ih h
    · cases h
    · cases h

/-- One poll more. -/
theorem drainPolls_snoc {u : State} {l : List Bool} {active : Bool} (hl : drainPolls l s = .next t)
    (h : exec .audioDrain { t with draws := { t.draws with engineActive := active } } = .next u) :
    drainPolls (l ++ [active]) s = .next u := by
  rw [drainPolls_append l [active] hl]
  simp only [drainPolls, h]

/-- One more poll that finds the engine active, before the last attempt of the last round: the next attempt, or the first
of the next round. -/
theorem PolledActive.succ (hfixed : s.cfg.fixedOk = true) (h : PolledActive s t k) (hk : k + 1 < 7500) :
    ∃ u, exec .audioDrain { t with draws := { t.draws with engineActive := true } } = .next u ∧
      PolledActive s u (k + 1) := by
  obtain ⟨hcfg, hp2, hround, hattempt, l, hl, hrecords⟩ := h
  obtain ⟨hattempts, hrounds⟩ := drainCounts_of_fixedOk hfixed
  rw [← hcfg] at hattempts hrounds
  obtain ⟨-, hnextAttempt, hnextRound, -, -⟩ :=
    drainPollCountsAttemptsAndRounds { t with draws := { t.draws with engineActive := true } } hp2
  by_cases hlast : k % 500 + 1 < 500
  · have hdiv : (k + 1) / 500 = k / 500 := by omega
    have hmod : (k + 1) % 500 = k % 500 + 1 := by omega
    have hpoll := hnextAttempt rfl (by simpa [hattempt, hattempts] using hlast)
    refine ⟨_, hpoll, hcfg, hp2, ?_, ?_, l ++ [.regRead 0x10 0x1], ?_, ?_⟩
    · rw [hdiv, ← hround]
    · rw [hmod, ← hattempt]
    · rw [← List.append_assoc, ← hl]
    · rw [hdiv]; exact hrecords.append pollRecords_nextAttempt
  · have hdiv : (k + 1) / 500 = k / 500 + 1 := by omega
    have hmod : (k + 1) % 500 = 0 := by omega
    have hpoll := hnextRound rfl (by simpa [hattempt, hattempts] using hlast) (by simp only [hround, hrounds]; omega)
    refine ⟨_, hpoll, hcfg, hp2, ?_, ?_, l ++ [.regRead 0x10 0x1, .audioChanged false], ?_, ?_⟩
    · rw [hdiv, ← hround]
    · rw [hmod]
    · rw [← List.append_assoc, ← hl]
    · rw [hdiv]; exact hrecords.append pollRecords_nextRound

/-- Fewer than 7500 polls that find the engine active leave the drain going on. -/
theorem drainPolls_active (hfixed : s.cfg.fixedOk = true) (hp2 : s.spWorker = .powerOffTask .p2)
    (hround : s.drainRound = 1) (hattempt : s.drainAttempt = 1) (k : Nat) (hk : k < 7500) :
    ∃ t, drainPolls (List.replicate k true) s = .next t ∧ PolledActive s t k := by
  induction k with
  | zero => exact ⟨s, rfl, rfl, hp2, hround, hattempt, [], by simp, by constructor <;> rfl⟩
  | succ k ih =>
    obtain ⟨t, ht, hpolled⟩ := ih (by omega)
    obtain ⟨u, hu, hpolled'⟩ := hpolled.succ hfixed hk
    exact ⟨u, by rw [List.replicate_succ', drainPolls_snoc ht hu], hpolled'⟩

end Drain

/-- Settles O27: after `k` active polls one that finds the engine inactive ends the drain, and so does the active poll of
the last attempt of the last round, the 7500th. -/
theorem drainEndsWithinItsBound : Obligations.DrainEndsWithinItsBound := by
  intro s hfixed hp2 hround hattempt
  have hpolls := drainPolls_active hfixed hp2 hround hattempt
  refine ⟨fun k hk => ?_, ?_⟩
  · obtain ⟨t, ht, -, hp2', hround', hattempt', l, hl, hrecords⟩ := hpolls k hk
    obtain ⟨hdrained, -⟩ :=
      drainPollCountsAttemptsAndRounds { t with draws := { t.draws with engineActive := false } } hp2'
    obtain ⟨hactive, hinactive, hnotified, hfailed, hlength⟩ := hrecords.append pollRecords_drained
    refine ⟨_, l ++ [.regRead 0x10 0x0], drainPolls_snoc ht (hdrained rfl), ?_, rfl, hround', hattempt', hactive,
      hinactive, hnotified, hfailed, by omega⟩
    rw [← List.append_assoc, ← hl]
  · obtain ⟨t, ht, hcfg, hp2', hround', hattempt', l, hl, hrecords⟩ := hpolls 7499 (by omega)
    obtain ⟨hattempts, hrounds⟩ := drainCounts_of_fixedOk hfixed
    obtain ⟨-, -, -, htimeout, -⟩ :=
      drainPollCountsAttemptsAndRounds { t with draws := { t.draws with engineActive := true } } hp2'
    obtain ⟨hactive, -, hnotified, hfailed, hlength⟩ := hrecords.append pollRecords_timeout
    have hend := htimeout rfl (by simp [hcfg, hattempts, hattempt']) (by simp [hcfg, hrounds, hround'])
    have hall : drainPolls (List.replicate 7500 true) s = _ :=
      (congrArg (drainPolls · s) List.replicate_succ').trans (drainPolls_snoc ht hend)
    refine ⟨_, l ++ [.regRead 0x10 0x1, .report .drainTimeout], hall, ?_, rfl, hround', hattempt',
      hactive, hnotified, hfailed, hlength⟩
    rw [← List.append_assoc, ← hl]

/-! ### AUDIO_ENABLE -/

/-- On a clock that ACR_CALC does not support, AUDIO_ENABLE records its one report (43_audio_drain R136). -/
theorem audioRecords_unsupported {c : Config} {clk : Word} {rate : SampleRate} (h : acrCalc c clk rate = none) :
    audioRecords c clk rate = [.report .unsupportedFormat] := by
  rw [audioRecords, h]

/-- On a supported clock it records the three writes of ACR_SETUP, the three of AINFO_EMIT and the audio-active signal
(43_audio_drain R136). -/
theorem audioRecords_supported {c : Config} {clk : Word} {rate : SampleRate} {r : AcrResult}
    (h : acrCalc c clk rate = some r) : audioRecords c clk rate =
      writeRecords (acrWrites r)
        ++ writeRecords (ainfoWrites (ainfoEncode (c.audioChannelTable.codes c.audioChannels) c.levelShift.toNat
          c.downMix.toNat))
        ++ [.audioChanged true] := by
  rw [audioRecords, h]

/-- Settles O41: the records are those of ACR_CALC's case, and AUDIO_ENABLE is its records. -/
theorem audioEnableProgramsOrReports : Obligations.AudioEnableProgramsOrReports := by
  rintro s _ rfl
  refine ⟨audioRecords_unsupported, fun hsupported => ?_, congrArg Host.Outcome.next (audioEnable_recorded s)⟩
  obtain ⟨r, hr⟩ := Option.ne_none_iff_exists'.1 hsupported
  rw [audioRecords_supported hr]
  exact ⟨rfl, by simp⟩

end Sys2Proof.Machine

/-! ## The infoframes

The checksum first, then the words of each packet read as numbers, lane by lane; each emit is its writes in order
(44_infoframes). -/

namespace Sys2Proof.Machine

/-! ### CHECKSUM -/

/-- The value of CHECKSUM (44_infoframes R150). -/
theorem checksum_toNat (bytes : List Byte) : (checksum bytes).toNat = (256 - byteSum bytes % 256) % 256 := by
  rw [checksum, BitVec.toNat_ofNat, Nat.mod_mod]

/-- The bytes with their checksum sum to 0 modulo 256 (44_infoframes R150). -/
theorem byteSum_add_checksum (bytes : List Byte) : (byteSum bytes + (checksum bytes).toNat) % 256 = 0 := by
  rw [checksum_toNat]
  omega

/-- Settles O34: the result is CHECKSUM's formula, which makes the sum 0. -/
theorem checksumMakesTheSumZero : Obligations.ChecksumMakesTheSumZero := by
  rintro s bytes _ rfl
  exact ⟨checksum bytes, rfl, checksum_toNat bytes, byteSum_add_checksum bytes⟩

/-! ### AVI_EMIT -/

/-- An id without a row is Unsupported (44_infoframes R151). -/
theorem avi?_eq_none {c : Config} {id : FormatId} (h : ∀ row, (id, row) ∉ c.aviTable) : c.avi? id = none := by
  rw [Config.avi?, Option.map_eq_none_iff, List.find?_eq_none]
  rintro ⟨key, row⟩ hmem hkey
  obtain rfl : key = id := by simpa using hkey
  exact h row hmem

/-- The row of an id that no row before it has (44_infoframes R151). -/
theorem avi?_eq_some {c : Config} {id : FormatId} {row : AviRow} {before after : List (FormatId × AviRow)}
    (htable : c.aviTable = before ++ (id, row) :: after) (hfirst : ∀ r ∈ before, r.1 ≠ id) : c.avi? id = some row :=
  Option.map_eq_some_iff.2 ⟨(id, row), List.find?_eq_some_iff_append.2 ⟨by simp, before, after, htable, fun r hr => by
    simpa using hfirst r hr⟩, rfl⟩

/-- Without a row AVI_EMIT is its one report (44_infoframes R152). -/
theorem exec_aviEmit_unsupported {s : State} {id : FormatId} (scan : BitVec 2) (h : s.cfg.avi? id = none) :
    exec (.aviEmit id scan) s = .next { s with trace := s.trace ++ [.report .unsupportedFormat] } := by
  change Host.Outcome.next (aviEmit id scan s) = _
  rw [aviEmit, aviEncode, h]
  rfl

/-- With a row AVI_EMIT is its five writes in order (44_infoframes R152). -/
theorem exec_aviEmit_row {s : State} {id : FormatId} {scan : BitVec 2} {row : AviRow} {w0 w1 w2 w3 : Word}
    (h : s.cfg.avi? id = some row) (hw : aviWords s.cfg row scan = (w0, w1, w2, w3)) :
    exec (.aviEmit id scan) s = .next
      { s with
        tx := { s.tx with aviInfo0 := w0, aviInfo1 := w1, aviInfo2 := w2, aviInfo3 := w3, aviCtrl := 0x1 }
        trace := s.trace ++ [.regWrite 0x30 w0, .regWrite 0x34 w1, .regWrite 0x38 w2, .regWrite 0x3C w3,
          .regWrite 0x2C 0x1] } := by
  change Host.Outcome.next (aviEmit id scan s) = _
  rw [aviEmit, aviEncode, h, Option.map_some, hw]
  refine (congrArg Host.Outcome.next (txWrites_plain _ s rfl)).trans ?_
  simp only [aviWrites, setAll, List.foldl_cons, List.foldl_nil, TxRegs.set]
  rfl

/-- The packet parameters that 00_scope R5 fixes. -/
theorem packetParameters_of_fixedOk {c : Config} (h : c.fixedOk = true) :
    c.spdSourceInfo = 0x00 ∧ c.audioChannelTable = ⟨⟨0x01, 0x00⟩, ⟨0x03, 0x03⟩, ⟨0x05, 0x0B⟩, ⟨0x07, 0x1F⟩⟩ ∧
      c.aviType = 0x82 ∧ c.aviVersion = 0x02 ∧ c.aviLength = 0x0D := by
  simp only [Config.fixedOk, Bool.and_eq_true, decide_eq_true_eq] at h
  obtain ⟨⟨⟨⟨⟨⟨⟨-, hinfo⟩, hchannels⟩, -⟩, -⟩, htype⟩, hversion⟩, hlength⟩ := h
  exact ⟨hinfo, hchannels, htype, hversion, hlength⟩

/-- Settles O35: no row, or the row's four words lane by lane with the checksum of its sixteen bytes. -/
theorem aviEmitPacksTheRow : Obligations.AviEmitPacksTheRow := by
  refine fun s id scan => ⟨fun hnone => exec_aviEmit_unsupported scan (avi?_eq_none hnone),
    fun row before after htable hother => ?_, fun hfixed => ?_⟩
  · have hrow : s.cfg.avi? id = some row := avi?_eq_some htable fun r hr => hother r (List.mem_append_left _ hr)
    refine ⟨checksum (aviBytes s.cfg row scan), aviData1 row scan, _, _, _, _, exec_aviEmit_row hrow rfl, rfl,
      pack4_toNat _ _ _ _, pack4_toNat _ _ _ _, pack4_toNat _ _ _ _, ?_, ?_⟩
    · simp [pack4_toNat]
    · have hsum := byteSum_add_checksum (aviBytes s.cfg row scan)
      simpa [byteSum, aviBytes, ← Nat.add_assoc] using hsum
  · obtain ⟨-, -, havi⟩ := packetParameters_of_fixedOk hfixed
    exact havi

/-! ### SPD_EMIT -/

/-- The header word of the source descriptor as a number (44_infoframes R153). -/
theorem spdHeader_eq : spdHeader = 0x00190183 := by decide

/-- SPD_EMIT is its nine writes in order (44_infoframes R154). -/
theorem exec_spdEmit {s : State} {w : SpdWords}
    (h : spdEncode s.cfg.vendorName s.cfg.productDesc s.cfg.spdSourceInfo = w) :
    exec .spdEmit s = .next
      { s with
        tx := { s.tx with
          spdHdr := 0x00190183, spd0 := w.s0, spd1 := w.s1, spd2 := w.s2, spd3 := w.s3, spd4 := w.s4, spd5 := w.s5,
          spd6 := w.s6, spdCtrl := 0x1 }
        trace := s.trace ++ [.regWrite 0x44 0x00190183, .regWrite 0x4C w.s1, .regWrite 0x50 w.s2, .regWrite 0x54 w.s3,
          .regWrite 0x58 w.s4, .regWrite 0x5C w.s5, .regWrite 0x60 w.s6, .regWrite 0x48 w.s0, .regWrite 0x40 0x1] } := by
  change Host.Outcome.next (txWrites (spdWrites (spdEncode _ _ _)) s) = _
  rw [h, txWrites_plain _ s rfl]
  simp only [spdWrites, spdHeader_eq, setAll, List.foldl_cons, List.foldl_nil, TxRegs.set]
  rfl

/-- The four lanes of a word, the low one first (20_memory R43). -/
def lanes (w : Word) : List Nat := [w.toNat % 256, w.toNat / 2 ^ 8 % 256, w.toNat / 2 ^ 16 % 256, w.toNat / 2 ^ 24]

/-- The lanes of a packed word are its bytes (20_memory R43). -/
theorem lanes_pack4 (a b c d : Byte) : lanes (pack4 a b c d) = [a, b, c, d].map BitVec.toNat := by
  have ha := a.isLt
  have hb := b.isLt
  have hc := c.isLt
  simp only [lanes, pack4_toNat, List.map_cons, List.map_nil, List.cons.injEq, and_true]
  omega

/-- The eight bytes of a vendor name in order (44_infoframes R153). -/
theorem vector8_toList {α : Type} (v : Vector α 8) : v.toList = [v[0], v[1], v[2], v[3], v[4], v[5], v[6], v[7]] :=
  List.ext_getElem (by simp) fun i h _ => by
    rw [Vector.length_toList] at h
    interval_cases i <;> simp

/-- The sixteen bytes of a product description in order (44_infoframes R153). -/
theorem vector16_toList {α : Type} (p : Vector α 16) :
    p.toList = [p[0], p[1], p[2], p[3], p[4], p[5], p[6], p[7], p[8], p[9], p[10], p[11], p[12], p[13], p[14], p[15]] :=
  List.ext_getElem (by simp) fun i h _ => by
    rw [Vector.length_toList] at h
    interval_cases i <;> simp

/-- The lanes of the seven words are the checksum, the 25 payload bytes and two 0 bytes (44_infoframes R153). -/
theorem lanes_spdEncode {vendor : Vector Byte 8} {product : Vector Byte 16} {info : Byte} {w : SpdWords}
    (h : spdEncode vendor product info = w) :
    [w.s0, w.s1, w.s2, w.s3, w.s4, w.s5, w.s6].flatMap lanes =
      (checksum (spdBytes vendor product info) :: spdPayload vendor product info ++ [0, 0]).map BitVec.toNat := by
  subst h
  simp [spdEncode, lanes_pack4, spdPayload, vector8_toList, vector16_toList]

/-- The masked strings as numbers (44_infoframes R153). -/
theorem map_toNat_ascii7 (l : List Byte) : (l.map ascii7).map BitVec.toNat = l.map fun b => b.toNat % 128 := by
  simp [ascii7_toNat]

/-- Settles O36: the lanes of the seven words, and the sum of the 28 bytes with their checksum. -/
theorem spdEmitPacksTheStrings : Obligations.SpdEmitPacksTheStrings := by
  intro s v p hv hp
  rw [← map_toNat_ascii7] at hv hp
  refine ⟨checksum (spdBytes s.cfg.vendorName s.cfg.productDesc s.cfg.spdSourceInfo), _, _, _, _, _, _, _,
    exec_spdEmit rfl, (lanes_spdEncode rfl).trans ?_, ?_, fun hfixed => ?_⟩
  · simp [spdPayload, hv, hp]
  · have hsum := byteSum_add_checksum (spdBytes s.cfg.vendorName s.cfg.productDesc s.cfg.spdSourceInfo)
    simpa [spdBytes, spdPayload, byteSum, ← hv, ← hp, Config.spdType, Config.spdVersion, Config.spdLength,
      ← Nat.add_assoc] using hsum
  · obtain ⟨hinfo, -⟩ := packetParameters_of_fixedOk hfixed
    exact hinfo

/-! ### AINFO_EMIT -/

/-- `b5` as a number (44_infoframes R155). -/
theorem ainfoData5_toNat (levelShift downMix : Nat) :
    (ainfoData5 levelShift downMix).toNat = levelShift % 16 * 8 + downMix % 2 * 128 := by
  have hshift : (BitVec.ofNat 8 (levelShift % 16) <<< 3).toNat = levelShift % 16 * 2 ^ 3 := by
    rw [BitVec.toNat_shiftLeft, BitVec.toNat_ofNat, Nat.shiftLeft_eq]
    omega
  have hmix : (BitVec.ofNat 8 (downMix % 2) <<< 7).toNat = (downMix % 2) <<< 7 := by
    rw [BitVec.toNat_shiftLeft, BitVec.toNat_ofNat, Nat.shiftLeft_eq, Nat.shiftLeft_eq]
    omega
  rw [ainfoData5, BitVec.toNat_or, hshift, hmix]
  exact or_shift (by omega) _

/-- AINFO_EMIT is its three writes in order (44_infoframes R156). -/
theorem exec_ainfoEmit {s : State} {ch : ChannelCount} {levelShift downMix : Nat} {w0 w1 : Word}
    (h : ainfoEncode (s.cfg.audioChannelTable.codes ch) levelShift downMix = (w0, w1)) :
    exec (.ainfoEmit ch levelShift downMix) s = .next
      { s with
        tx := { s.tx with audioInfo0 := w0, audioInfo1 := w1, audioInfoCtrl := 0x1 }
        trace := s.trace ++ [.regWrite 0x68 w0, .regWrite 0x6C w1, .regWrite 0x64 0x1] } := by
  change Host.Outcome.next (txWrites (ainfoWrites (ainfoEncode _ _ _)) s) = _
  rw [h]
  exact congrArg Host.Outcome.next (txWrites_plain _ s rfl)

/-- Settles O37: the two words of the codes, and the sum of the six terms with their checksum. -/
theorem audioInfoEmitPacksTheCodes : Obligations.AudioInfoEmitPacksTheCodes := by
  rintro s ch ls dm _ _ _ rfl rfl rfl
  rw [← ainfoData5_toNat]
  refine ⟨checksum (ainfoBytes (s.cfg.audioChannelTable.codes ch) ls dm), _, _, exec_ainfoEmit rfl, ?_, ?_, ?_,
    fun hfixed => ?_⟩
  · simp [pack4_toNat]
  · simp [pack4_toNat]
  · have hsum := byteSum_add_checksum (ainfoBytes (s.cfg.audioChannelTable.codes ch) ls dm)
    simpa [byteSum, ainfoBytes, Config.ainfoType, Config.ainfoVersion, Config.ainfoLength, ← Nat.add_assoc] using hsum
  · obtain ⟨-, hchannels, -⟩ := packetParameters_of_fixedOk hfixed
    rw [hchannels]
    cases ch <;> simp [ChannelTable.codes]

end Sys2Proof.Machine

/-! ## The audio clock recovery

ACR_CALC is a row of the table and the record for its entry; ACR_SETUP is the three writes of that record (45_acr). -/

namespace Sys2Proof.Machine

/-! ### ACR_CALC -/

section Calc
variable {c : Config} {clk : Word} {row : AcrRow}

/-- A clock without a row is Unsupported (45_acr R171). -/
theorem acrCalc_eq_none (rate : SampleRate) (h : ∀ row ∈ c.acrTable, row.clockHz ≠ clk) :
    acrCalc c clk rate = none := by
  rw [acrCalc, Config.acr?, Option.map_eq_none_iff, List.find?_eq_none]
  simpa using h

/-- The lookup of a clock that one row has yields that row (45_acr R170, R171). -/
theorem acr?_eq_some (hmem : row ∈ c.acrTable)
    (hunique : ∀ r ∈ c.acrTable, r.clockHz = row.clockHz → r = row) : c.acr? row.clockHz = some row := by
  unfold Config.acr?
  cases hfind : c.acrTable.find? fun r => r.clockHz == row.clockHz with
  | none => exact absurd (List.find?_eq_none.1 hfind row hmem) (by simp)
  | some r =>
    have hclock : r.clockHz = row.clockHz := by simpa using List.find?_some hfind
    rw [hunique r (List.mem_of_find?_eq_some hfind) hclock]

/-- The result for a clock that one row has is that of the row's entry (45_acr R171). -/
theorem acrCalc_eq_some (rate : SampleRate) (hmem : row ∈ c.acrTable)
    (hunique : ∀ r ∈ c.acrTable, r.clockHz = row.clockHz → r = row) :
    acrCalc c row.clockHz rate = some (acrResult (row.entry rate) rate) := by
  rw [acrCalc, acr?_eq_some hmem hunique, Option.map_some]

/-- The emitted `N` as a number (45_acr R171). -/
theorem acrResult_n_toNat (e : AcrEntry) (rate : SampleRate) :
    (acrResult e rate).n.toNat = e.n.toNat / (rateMultiplier rate).value := quotient_toNat _ _

/-- The CTS field as a number (45_acr R171). -/
theorem acrResult_ctsField_toNat (e : AcrEntry) (rate : SampleRate) :
    (acrResult e rate).ctsField.toNat = e.cts.toNat * 4096 % 2 ^ 32 := by
  rw [acrResult, BitVec.toNat_shiftLeft, Nat.shiftLeft_eq]

/-- The table of rates is the multiplier, slot and entry that ACR_CALC takes for each rate (45_acr R170). -/
theorem rateTable_eq_map (row : AcrRow) : rateTable row =
    [SampleRate.r32k, .r44k1, .r48k, .r88k2, .r96k, .r176k4, .r192k].map fun rate =>
      (rate, (rateMultiplier rate).value, (rateSlot rate).field.toNat, row.entry rate) := rfl

end Calc

/-- Settles O38: the one row of the clock is the one looked up, and the result of its entry is read as numbers. -/
theorem acrCalcLooksUpAndScales : Obligations.AcrCalcLooksUpAndScales := by
  intro s clk rate
  have hexec : exec (.acrCalc clk rate) s = .next { s with ret := .acr (acrCalc s.cfg clk rate) } := rfl
  refine ⟨fun hnone => by rw [hexec, acrCalc_eq_none rate hnone], ?_⟩
  rintro row before after _ _ _ htable rfl hother hrate
  have hmem : row ∈ s.cfg.acrTable := by simp [htable]
  have hunique : ∀ r ∈ s.cfg.acrTable, r.clockHz = row.clockHz → r = row := by
    intro r hr hclock
    rw [htable, List.mem_append, List.mem_cons, or_left_comm, ← List.mem_append] at hr
    exact hr.resolve_right fun hr => hother r hr hclock
  rw [rateTable_eq_map, List.mem_map] at hrate
  obtain ⟨_, -, ⟨⟩⟩ := hrate
  exact ⟨_, by rw [hexec, acrCalc_eq_some rate hmem hunique], acrResult_n_toNat _ _, acrResult_ctsField_toNat _ _,
    rfl, rfl⟩

/-! ### ACR_SETUP -/

/-- On an unsupported clock ACR_SETUP writes nothing (45_acr R172). -/
theorem exec_acrSetup_unsupported {s : State} {clk : Word} {rate : SampleRate} (h : acrCalc s.cfg clk rate = none) :
    exec (.acrSetup clk rate) s = .next { s with ret := .supported false } := by
  change Host.Outcome.next (returning _ (acrSetup clk rate s)) = _
  rw [acrSetup, h]
  rfl

/-- On a supported clock it is its three writes in order (45_acr R172). -/
theorem exec_acrSetup_supported {s : State} {clk : Word} {rate : SampleRate} {r : AcrResult}
    (h : acrCalc s.cfg clk rate = some r) :
    exec (.acrSetup clk rate) s = .next
      { s with
        tx := setAll s.tx (acrWrites r)
        trace := s.trace ++ writeRecords (acrWrites r)
        ret := .supported true } := by
  change Host.Outcome.next (returning _ (acrSetup clk rate s)) = _
  rw [acrSetup, h]
  exact congrArg (fun t => Host.Outcome.next (returning (.supported true) t)) (txWrites_plain _ s (acrWrites_plain r))

/-- The fields of the control word do not overlap, so the word is their sum (45_acr R172, 10_state R26). -/
theorem acrControl_eq (r : AcrResult) :
    acrControl r = BitVec.ofNat 32 (1 + r.slot.field.toNat * 2 ^ 4 + r.mult.field.toNat * 2 ^ 16) := by
  have hfields : ∀ slot mult : BitVec 2, 1 ||| (slot.setWidth 32 <<< 4) ||| (mult.setWidth 32 <<< 16) =
      BitVec.ofNat 32 (1 + slot.toNat * 2 ^ 4 + mult.toNat * 2 ^ 16) := by decide
  exact hfields _ _

/-- Settles O39: no write on an unsupported clock, else the three writes of the result, slot by slot. -/
theorem acrSetupWritesOneSlot : Obligations.AcrSetupWritesOneSlot := by
  refine fun s clk rate => ⟨exec_acrSetup_unsupported, fun r ctl hr hctl => ?_⟩
  rw [← acrControl_eq] at hctl
  subst hctl
  have hexec := exec_acrSetup_supported hr
  rw [acrWrites] at hexec
  refine ⟨fun hslot => ?_, fun hslot => ?_, fun hslot => ?_⟩
  all_goals
    rw [hexec, hslot]
    rfl

/-! ### The emitted `N` -/

/-- In a row that meets the requirement, the multiplier of every rate divides the rate's `N` (45_acr R173). -/
theorem multiplier_dvd_n {row : AcrRow} (h : row.multiplesOk = true) (rate : SampleRate) :
    (rateMultiplier rate).value ∣ (row.entry rate).n.toNat := by
  simp only [AcrRow.multiplesOk, Bool.and_eq_true, decide_eq_true_eq] at h
  obtain ⟨⟨⟨h88k2, h96k⟩, h176k4⟩, h192k⟩ := h
  cases rate with
  | r32k => exact one_dvd _
  | r44k1 => exact one_dvd _
  | r48k => exact one_dvd _
  | r88k2 => exact Nat.dvd_of_mod_eq_zero h88k2
  | r96k => exact Nat.dvd_of_mod_eq_zero h96k
  | r176k4 => exact Nat.dvd_of_mod_eq_zero h176k4
  | r192k => exact Nat.dvd_of_mod_eq_zero h192k

/-- Where keys are unique, a row's clock looks up that row's entry (45_acr R170, R171). -/
theorem acrCalc_of_keysUnique {c : Config} {row : AcrRow} (rate : SampleRate) (h : c.keysUnique = true)
    (hmem : row ∈ c.acrTable) : acrCalc c row.clockHz rate = some (acrResult (row.entry rate) rate) := by
  simp only [Config.keysUnique, Bool.and_eq_true, decide_eq_true_eq] at h
  obtain ⟨hclocks, -⟩ := h
  exact acrCalc_eq_some rate hmem fun r hr => List.inj_on_of_nodup_map hclocks hr hmem

/-- Settles O40: the row looked up is the row given, and its `N` is divided without remainder. -/
theorem emittedNTimesMultiplierIsTableN : Obligations.EmittedNTimesMultiplierIsTableN := by
  intro c row rate r hmultiples hmem hkeys hr
  rw [acrCalc_of_keysUnique rate hkeys hmem] at hr
  obtain rfl : acrResult (row.entry rate) rate = r := Option.some.inj hr
  rw [acrResult_n_toNat]
  exact Nat.div_mul_cancel (multiplier_dvd_n (List.all_eq_true.1 hmultiples row hmem) rate)

end Sys2Proof.Machine

/-! ## Exceptions, interrupts and power

The calls of each power domain are told from the domain flags, which the invariant ties to the hot-plug state and the panel;
the rest is read off the moves of the agents (60_exceptions). -/

namespace Sys2Proof.Machine

/-! ### The domain calls pair up -/

/-- `t` is `s` after records whose calls of each domain pair up, from the flags of `s` to the flags of `t`
(60_exceptions R196). -/
def PairsCalls (s t : State) : Prop :=
  ∃ l, t.trace = s.trace ++ l ∧ ∀ d : Domain, replayDomain d (s.enabled.get d) l = some (t.enabled.get d)

section Domains
variable {s t : State}

/-- The three domain flags are the hot-plug flag and, twice, the panel's (10_state R15 I-f). -/
theorem Inv.enabled_eq (h : Inv s) : s.enabled = ⟨s.ts.hpdInitialized, s.ts.panelPoweredOn, s.ts.panelPoweredOn⟩ := by
  rw [← h.hotplugFlag, ← h.coreFlag]
  exact congrArg (Enabled.mk _ _) (h.cecFlag.trans h.coreFlag.symm)

/-- The domain flags while a command runs. -/
theorem Running.enabled_eq (h : Running s) :
    s.enabled = ⟨s.ts.hpdInitialized, s.ts.panelPoweredOn, s.ts.panelPoweredOn⟩ := h.rest.enabled_eq

/-- A machine in HPD_OFF as its derived flag (10_state R14). -/
theorem hpdInitialized_of_off {ts : TransmitterState} (h : ts.hpdState = .hpdOff) : ts.hpdInitialized = false :=
  Bool.eq_false_iff.2 fun hinit => (hpdInitialized_iff ts).1 hinit h

/-- All three domains are on while WORKER powers the panel off: a panel that is on is armed (10_state R15 I-a, I-f). -/
theorem Inv.enabled_of_inPowerOff (h : Inv s) (hin : inPowerOff s) : s.enabled = ⟨true, true, true⟩ := by
  have hpanel := h.powered_of_inPowerOff hin
  rw [h.enabled_eq, hpanel, (hpdInitialized_iff s.ts).2 (h.poweredArmed hpanel)]

/-- Nothing recorded, no flag changed. -/
theorem PairsCalls.of_unchanged (htrace : t.trace = s.trace) (henabled : t.enabled = s.enabled) : PairsCalls s t :=
  ⟨[], by simpa using htrace, fun d => by rw [henabled]; rfl⟩

/-- The `Done` record that ends a host command calls no domain. -/
theorem PairsCalls.ended {p : State} {recs : List Rec} (op err : Byte) (htrace : p.trace = s.trace)
    (h : ∀ d : Domain, replayDomain d (s.enabled.get d) recs = some (p.enabled.get d)) :
    PairsCalls s (ended op err recs p) := by
  refine ⟨recs ++ [.done op err], by simp [Machine.ended, htrace], fun d => ?_⟩
  rw [replayDomain_append, h d]
  rfl

/-- A running command calls a domain where the invariant says what its flag is: Hotplug by the hot-plug state, Core and CEC
off, since step B of POWER_ON finds the panel off (40_hotplug_fsm R81, R82, 41_power_sequencer R100). -/
theorem HostMove.pairsCalls {i : Instr} (m : HostMove s i t) (h : Running s) : PairsCalls s t := by
  have hflags := h.enabled_eq
  cases m with
  | waits | stillWaits | resumeWaits | resumeStillWaits => exact .of_unchanged rfl rfl
  | domainFailed hoff | armed hoff =>
    rw [hpdInitialized_of_off hoff] at hflags
    exact .ended _ _ rfl fun d => by cases d <;> simp [replayDomain, Enabled.get, hflags]
  | tornDown harmed =>
    rw [(hpdInitialized_iff s.ts).2 harmed] at hflags
    exact .ended _ _ rfl fun d => by cases d <;> simp [replayDomain, Enabled.get, hflags]
  | coreFailed _ _ hsp hno | cecFailed _ _ hsp hno =>
    rw [h.unpowered_of_powerOn hsp hno] at hflags
    exact .ended _ _ rfl fun d => by cases d <;> simp [replayDomain, Enabled.get, hflags]
  | poweredOn _ id a timing recs hsp hno _ _ _ hrecs =>
    rw [h.unpowered_of_powerOn hsp hno] at hflags
    refine .ended _ _ rfl fun d => ?_
    rw [hrecs]
    exact replayDomain_powerOn d _ (by rw [hflags]) (by rw [hflags]) _ _ _ _ _ _
  | _ => exact .ended _ _ rfl fun _ => rfl

/-- IRQ's handler calls no domain. -/
theorem IrqMove.pairsCalls (m : IrqMove s t) : PairsCalls s t := by
  cases m with
  | notEnabled => exact .of_unchanged rfl rfl
  | spurious | acknowledged | queued => exact ⟨_, rfl, fun _ => rfl⟩

/-- WORKER calls domains in step P3 only, which finds all three on (41_power_sequencer R102). -/
theorem WorkerMove.pairsCalls (m : WorkerMove s t) (h : Inv s) : PairsCalls s t := by
  cases m with
  | nothingQueued | offGuard => exact .of_unchanged rfl rfl
  | connected q sink recs _ _ _ _ hsink =>
    refine ⟨[.regRead 0x0C (hpdIntStatusWord s), .regWrite 0x04 0x4] ++ recs ++ [.connChanged .connected], by simp,
      fun d => ?_⟩
    rcases hsink with ⟨-, rfl⟩ | ⟨-, -, rfl⟩ <;> rfl
  | offAndTornDown hp3 | offAndRearmed hp3 =>
    have hflags := h.enabled_of_inPowerOff (by simp [inPowerOff, hp3])
    exact ⟨_, rfl, fun d => by cases d <;> simp [replayDomain, Enabled.get, hflags]⟩
  | _ => exact ⟨_, rfl, fun _ => rfl⟩

/-- Every move from a state of the invariant. -/
theorem Move.pairsCalls {a : Action} (m : Move s a t) (h : Inv s) : PairsCalls s t := by
  cases m with
  | noStep | arg0 | arg1 | arg2 | setSense => exact .of_unchanged rfl rfl
  | illegal => exact .ended _ _ rfl fun _ => rfl
  | issued w _ _ _ _ hm => exact hm.pairsCalls (h.issued w)
  | powerOnStep _ _ _ hsp hm | resumeStep _ _ hsp hm => exact hm.pairsCalls (h.running (by simp [hsp]))
  | irq _ hm => exact hm.pairsCalls
  | worker _ hm => exact hm.pairsCalls h

end Domains

/-- Settles O46: a step is a move, and the calls of every move pair up. -/
theorem domainCallsAlternate : Obligations.DomainCallsAlternate :=
  fun s t h hstep => (step_move s t hstep).pairsCalls h.prepared

/-! ### Only HOST's commands raise -/

/-- What HOST's commands write is as it was, and no command ended (60_exceptions R192, R194). -/
structure LeavesHostAlone (s t : State) : Prop where
  err : t.err = s.err
  busy : t.busy = s.busy
  rdata : t.rdata = s.rdata
  arguments : KeepsArguments s t
  cmd : t.cmd = s.cmd
  spHost : t.spHost = s.spHost
  records : AddsOnly EndsNothing s t

section Raising
variable {s t : State}

/-- IRQ and WORKER before step P3 end no command. -/
theorem Undisturbed.endsNothing (h : Undisturbed s t) : AddsOnly EndsNothing s t :=
  h.records.mono fun r hr => by cases hr <;> nofun

/-- Step P3 ends no command. -/
theorem ShutsDown.endsNothing (h : ShutsDown s t) : AddsOnly EndsNothing s t := by
  refine ⟨_, h.records, ?_⟩
  unfold shutDownRecords
  split <;> simp [EndsNothing]

/-- IRQ's handler leaves HOST's side. -/
theorem IrqMove.leavesHostAlone (m : IrqMove s t) : LeavesHostAlone s t := by
  have hrecords := m.undisturbed.endsNothing
  have harguments := m.keepsArguments
  cases m <;> exact ⟨rfl, rfl, rfl, harguments, rfl, rfl, hrecords⟩

/-- WORKER's tasks leave HOST's side. -/
theorem WorkerMove.leavesHostAlone (m : WorkerMove s t) : LeavesHostAlone s t := by
  have hrecords := m.undisturbed_or_shutsDown.elim (·.endsNothing) (·.endsNothing)
  have harguments := m.keepsArguments
  cases m <;> exact ⟨rfl, rfl, rfl, harguments, rfl, rfl, hrecords⟩

/-- A move that is neither a write of HOST nor its pending step leaves HOST's side. -/
theorem Move.leavesHostAlone {a : Action} (m : Move s a t) (hwrite : ∀ offset v, a ≠ .hostWrite offset v)
    (hstep : a ≠ .hostStep) : LeavesHostAlone s t := by
  cases m with
  | noStep | setSense => exact ⟨rfl, rfl, rfl, ⟨rfl, rfl, rfl, rfl⟩, rfl, rfl, .of_trace_eq rfl⟩
  | arg0 | arg1 | arg2 | illegal | issued => exact absurd rfl (hwrite _ _)
  | powerOnStep | resumeStep => exact absurd rfl hstep
  | irq _ hm => exact hm.leavesHostAlone
  | worker _ hm => exact hm.leavesHostAlone

end Raising

/-- Settles O48: a step is a move, and the moves of IRQ, WORKER, ENV and a read by HOST leave HOST's side. -/
theorem onlyHostCommandsRaise : Obligations.OnlyHostCommandsRaise := by
  intro s t l op e hstep hl ha
  have m := step_move s t hstep
  generalize (nextStimulus s).action = a at m ha
  have hleaves : LeavesHostAlone (prepare s) t := by
    rcases ha with rfl | rfl | ⟨level, rfl⟩ | ⟨offset, rfl⟩ <;> exact m.leavesHostAlone nofun nofun
  obtain ⟨herr, hbusy, hrdata, ⟨-, h0, h1, h2⟩, hcmd, hsp, hrecords⟩ := hleaves
  exact ⟨herr, hbusy, hrdata, h0, h1, h2, hcmd, hsp, fun hmem => hrecords.forall_mem hl _ hmem op e rfl⟩

/-! ### The power states -/

/-- Settles O52: the hot-plug state and the panel say the flags, and a panel that is on excludes HPD_OFF. -/
theorem powerStatesAreTheThreeOfTheTable : Obligations.PowerStatesAreTheThreeOfTheTable := by
  intro s h
  have hflags := h.enabled_eq
  by_cases hoff : s.ts.hpdState = .hpdOff
  · have hpanel : s.ts.panelPoweredOn = false := Bool.eq_false_iff.2 fun hp => h.poweredArmed hp hoff
    rw [hpdInitialized_of_off hoff, hpanel] at hflags
    exact .inl (by simp [powerState, hflags, hoff, hpanel])
  · rw [(hpdInitialized_iff s.ts).2 hoff] at hflags
    cases hpanel : s.ts.panelPoweredOn with
    | false => exact .inr (.inl (by simp [powerState, hflags, hoff, hpanel]))
    | true => exact .inr (.inr (by simp [powerState, hflags, hoff, hpanel]))

/-! ### Every step goes on -/

/-- Every operation answers a next state (60_exceptions R185). -/
theorem exec_goesOn (i : Instr) (s : State) : ∃ t, exec i s = .next t := by
  cases i <;> exact ⟨_, rfl⟩

/-- A write of CMD goes on: ignored, run or refused as illegal (60_exceptions R192). -/
theorem writeCmd_goesOn (w : Word) (s : State) : ∃ t, writeCmd w s = .next t := by
  unfold writeCmd
  split
  · exact ⟨_, rfl⟩
  · split
    · exact exec_goesOn _ _
    · exact ⟨_, rfl⟩

/-- A write of HOST goes on at every offset (20_memory R45). -/
theorem hostWrite_goesOn (offset : Nat) (v : Word) (s : State) : ∃ t, hostWrite offset v s = .next t := by
  unfold hostWrite
  split
  · exact writeCmd_goesOn v s
  all_goals exact ⟨_, rfl⟩

/-- HOST's pending step goes on. -/
theorem hostStep_goesOn (s : State) : ∃ t, hostStep s = .next t := by
  unfold hostStep
  split
  · exact ⟨_, rfl⟩
  all_goals exact exec_goesOn _ _

/-- Settles O6: the move of every agent answers a next state. -/
theorem everyStepGoesOn : Obligations.EveryStepGoesOn := by
  intro s
  unfold step takeStep
  cases (nextStimulus s).action with
  | hostWrite offset v => exact hostWrite_goesOn offset v _
  | hostRead | setSense => exact ⟨_, rfl⟩
  | hostStep => exact hostStep_goesOn _
  | irq => exact exec_goesOn .connIrq _
  | worker => exact workerStep_goesOn _

/-! ### The interrupt latch -/

/-- ENV's drive of the line, to whichever level, evaluates the latch in the same transition (60_exceptions R188). -/
theorem step_setSense {s : State} {level : Bool} {d : Draws} {rest : List Stimulus}
    (h : s.agenda = ⟨.setSense level, d⟩ :: rest) : step s = .next
      { s with
        agenda := rest
        tick := s.tick + 1
        draws := d
        sense := level
        intPending := s.intPending || (s.tx.hpdIntCtrl.getLsbD 2 && (level == s.tx.hpdIntCtrl.getLsbD 1)) } :=
  step_of_agenda h

/-- An acknowledge clears `intPending` where bit 0 of its word is set, and latches nothing (60_exceptions R188). -/
theorem pendingAfterWrite_ack (v : Word) (s : State) :
    pendingAfterWrite .hpdIntAck v s = (s.intPending && !v.getLsbD 0) := by
  unfold pendingAfterWrite
  cases v.getLsbD 0 <;> simp

/-- Settles O21: a write of HPD_INT_CTRL and a change of the line are the latch itself, an acknowledge is not. -/
theorem latchSetsThePendingInterrupt : Obligations.LatchSetsThePendingInterrupt :=
  ⟨fun _ _ => rfl, fun s v => pendingAfterWrite_ack v s, fun _ _ _ _ hagenda _ => step_setSense hagenda⟩

/-- Settles O54: a drive of the line is the same transition whatever the level it had. -/
theorem lineDrivenToItsLevelEvaluatesTheLatch : Obligations.LineDrivenToItsLevelEvaluatesTheLatch :=
  fun _ _ _ hagenda => step_setSense hagenda

end Sys2Proof.Machine

/-! ## The order of the shut-down

Audio is silenced on the way into step P2, the drain ends on the way into step P3, and the physical layer goes down in step P3:
each is read off the moves of WORKER, the one agent that moves its sequence pointer (70_reset_and_hazards R208). -/

namespace Sys2Proof.Machine

/-- WORKER is where it was in its task, and the physical layer was not powered down. -/
structure KeepsTask (s t : State) : Prop where
  spWorker : t.spWorker = s.spWorker
  records : AddsOnly (· ≠ .callPowerDownPhysicalLayer) s t

section ShutDownOrder
variable {s t : State} {l : List Rec}

/-- The records of a successful POWER_ON do not power the physical layer down (41_power_sequencer R100). -/
theorem powerOnRecords_leavePhysicalLayer (c : Config) (id : FormatId) (t : VideoTiming) (rate : SampleRate)
    (sink : SinkInfo) (connection : Connection) :
    ∀ r ∈ powerOnRecords c id t rate sink connection, r ≠ .callPowerDownPhysicalLayer := by
  obtain ⟨l, hl, hlink⟩ := powerOnRecords_link c id t rate sink connection
  have hleaves : ∀ r ∈ l, r ≠ .callPowerDownPhysicalLayer := fun r hr => by cases hlink r hr <;> nofun
  simpa [hl] using hleaves

/-- HOST's commands leave WORKER's task: the disables among them are queued or deferred (41_power_sequencer R101,
40_hotplug_fsm R82). -/
theorem HostMove.keepsTask {i : Instr} (m : HostMove s i t) : KeepsTask s t := by
  refine ⟨by cases m <;> rfl, ?_⟩
  cases m with
  | waits | stillWaits | resumeWaits | resumeStillWaits => exact .of_trace_eq rfl
  | poweredOn _ _ _ _ _ _ _ _ _ _ hrecs =>
    exact .ended _ _ rfl (hrecs ▸ powerOnRecords_leavePhysicalLayer _ _ _ _ _ _) nofun
  | _ => exact .ended _ _ rfl (by simp) nofun

/-- Before step P3 no record of IRQ or WORKER powers the physical layer down. -/
theorem Undisturbed.leavesPhysicalLayer (h : Undisturbed s t) : AddsOnly (· ≠ .callPowerDownPhysicalLayer) s t :=
  h.records.mono fun r hr => by cases hr <;> nofun

/-- IRQ's handler leaves WORKER's task. -/
theorem IrqMove.keepsTask (m : IrqMove s t) : KeepsTask s t :=
  ⟨by cases m <;> rfl, m.undisturbed.leavesPhysicalLayer⟩

/-- A move that is not WORKER's leaves its task. -/
theorem Move.keepsTask_or_worker {a : Action} (m : Move s a t) : KeepsTask s t ∨ WorkerMove s t := by
  cases m with
  | noStep | arg0 | arg1 | arg2 | setSense => exact .inl ⟨rfl, .of_trace_eq rfl⟩
  | illegal => exact .inl ⟨rfl, .ended _ _ rfl (by simp) nofun⟩
  | issued _ _ _ _ _ hm =>
    obtain ⟨hsp, hrecords⟩ := hm.keepsTask
    exact .inl ⟨hsp, hrecords⟩
  | powerOnStep _ _ _ _ hm | resumeStep _ _ _ hm | irq _ hm => exact .inl hm.keepsTask
  | worker _ hm => exact .inr hm

/-- WORKER powers the physical layer down in step P3 only (41_power_sequencer R102). -/
theorem WorkerMove.powersDown_in_p3 (m : WorkerMove s t) (hl : t.trace = s.trace ++ l)
    (hmem : .callPowerDownPhysicalLayer ∈ l) : s.spWorker = .powerOffTask .p3 := by
  rcases m.undisturbed_or_shutsDown with h | h
  · exact absurd rfl (h.leavesPhysicalLayer.forall_mem hl _ hmem)
  · exact h.label

/-- WORKER comes to step P3 from P2, by a poll that finds the engine inactive or by the last poll of the last round
(43_audio_drain R135). -/
theorem WorkerMove.enters_p3 (m : WorkerMove s t) (hl : t.trace = s.trace ++ l) (hp3 : t.spWorker = .powerOffTask .p3) :
    s.spWorker = .powerOffTask .p3 ∨
      (s.spWorker = .powerOffTask .p2 ∧
        (.regRead 0x10 0x0 ∈ l ∨
          (.report .drainTimeout ∈ l ∧ s.cfg.drainAttempts ≤ s.drainAttempt ∧ s.cfg.drainRounds ≤ s.drainRound))) := by
  cases m with
  | drained hp2 =>
    have hrecords : [.regRead 0x10 0x0] = l := List.append_cancel_left hl
    exact .inr ⟨hp2, .inl (by simp [← hrecords])⟩
  | drainFailed hp2 hattempt hround =>
    have hrecords : [.regRead 0x10 0x1, .report .drainTimeout] = l := List.append_cancel_left hl
    exact .inr ⟨hp2, .inr ⟨by simp [← hrecords], hattempt, hround⟩⟩
  | offStarts | offAndTornDown | offAndRearmed => cases hp3
  | _ => exact .inl hp3

/-- WORKER comes to step P2 with the audio-off notification (41_power_sequencer R102). -/
theorem WorkerMove.enters_p2 (m : WorkerMove s t) (hl : t.trace = s.trace ++ l) (hp2 : t.spWorker = .powerOffTask .p2) :
    s.spWorker = .powerOffTask .p2 ∨ .audioChanged false ∈ l := by
  cases m with
  | offStarts =>
    have hrecords : [.audioChanged false] = l := List.append_cancel_left hl
    exact .inr (by simp [← hrecords])
  | drained | drainFailed | offAndTornDown | offAndRearmed => cases hp2
  | _ => exact .inl hp2

end ShutDownOrder

/-- Settles O31: a step leaves WORKER's task or is a move of WORKER, which enters P2 and P3 as the rules say. -/
theorem physicalLayerGoesDownAfterTheDrain : Obligations.PhysicalLayerGoesDownAfterTheDrain := by
  intro s t l hstep hl
  rcases (step_move s t hstep).keepsTask_or_worker with ⟨hsp, hrecords⟩ | m
  · exact ⟨fun hmem => absurd rfl (hrecords.forall_mem hl _ hmem), fun hp3 => .inl (hsp.symm.trans hp3),
      fun hp2 => .inl (hsp.symm.trans hp2)⟩
  · exact ⟨m.powersDown_in_p3 hl, m.enters_p3 hl, m.enters_p2 hl⟩

end Sys2Proof.Machine
